-- ==== Sys2Proof/Word.lean ====
section
/-! DEFINITION. The word types of the block: the widths of spec/20_memory.md R18 and the 32-bit command
and response words of spec/30_encoding.md R21 and R24. -/
namespace Sys2Proof

/-- A data byte, a checksum, an opcode, the register `C`: 8 bits unsigned (R6, R18, R21). -/
abbrev Byte := BitVec 8

/-- A raw reading or a response payload: 16 bits (R18, R24). -/
abbrev Half := BitVec 16

/-- A command word or a response word: 32 bits (R21, R24). -/
abbrev Word := BitVec 32

end Sys2Proof
end

