-- ==== Sys2Proof/Config.lean ====
section
/-! DEFINITION. The block's parameters, each at the value that the table of spec/00_scope.md R3 gives it.
There is no free value: the spec leaves no value of the block open (spec/93_implementation_defined.md part 2). -/
namespace Sys2Proof

/-- CRC_POLY8, the XOR constant 0x31: the low byte of the 9-bit pattern 0x131 (R3, R31). -/
def Config.crcPoly8 : Byte := 0x31

/-- CRC_INIT, the value with which every checksum starts (R3, R33). -/
def Config.crcInit : Byte := 0x00

/-- RESET_C, the value of `C` after reset (R3, R12, R68). -/
def Config.resetC : Byte := 0x00

/-- STATUS_MASK, which clears bits 1 and 0 of a raw reading (R3, R43). -/
def Config.statusMask : Half := 0xFFFC

/-- TAG_TEMPERATURE (R3, R45). -/
def Config.tagTemperature : BitVec 2 := 0b00

/-- TAG_HUMIDITY (R3, R45). -/
def Config.tagHumidity : BitVec 2 := 0b10

/-- T_OFFSET (R3, R46). -/
def Config.tOffset : Int := -4685 * 16384

/-- T_SLOPE (R3, R46). -/
def Config.tSlope : Int := 4393

/-- T_ROUND (R3, R46). -/
def Config.tRound : Int := 8192

/-- T_DIV (R3, R46). -/
def Config.tDiv : Int := 16384

/-- H_OFFSET (R3, R47). -/
def Config.hOffset : Int := -12 * 32768

/-- H_SLOPE (R3, R47). -/
def Config.hSlope : Int := 125

/-- H_ROUND (R3, R47). -/
def Config.hRound : Int := 16384

/-- H_DIV (R3, R47). -/
def Config.hDiv : Int := 32768

end Sys2Proof
end

