-- ==== Sys2Proof/Syntax.lean ====
section
/-! DEFINITION. The syntax of the block: the ten commands of spec/30_encoding.md R26, their mnemonics, formats and
operands (R22, R23), the measurement kinds, the two ways a word is illegal (R27) and the written form (R29). -/
namespace Sys2Proof

/-- The measurement kind, an enumeration of exactly two values (spec/00_scope.md section 6; spec/30_encoding.md R28). -/
inductive Kind where
  | temperature
  | humidity
deriving DecidableEq, Repr

/-- The ten commands, one constructor per row of spec/opcode_table.json (R26), with the operands of R22 and R23. -/
inductive Instr where
  /-- CRC.INIT (R35). -/
  | crcInit
  /-- CRC.BYTE b (R36). -/
  | crcByte (b : Byte)
  /-- CRC.GET (R37). -/
  | crcGet
  /-- CRC.CMP e (R38). -/
  | crcCmp (e : Byte)
  /-- CRC8 b0, b1 (R39). -/
  | crc8 (b0 b1 : Byte)
  /-- VERIFY b0, b1, e (R40). -/
  | verify (b0 b1 e : Byte)
  /-- CVT.T raw (R50). -/
  | cvtT (raw : Half)
  /-- CVT.H raw (R51). -/
  | cvtH (raw : Half)
  /-- RPLY.T b0, b1, chk (R54). -/
  | rplyT (b0 b1 chk : Byte)
  /-- RPLY.H b0, b1, chk (R55). -/
  | rplyH (b0 b1 chk : Byte)
deriving DecidableEq, Repr

/-- The mnemonics of R26. -/
inductive Mnemonic where
  | crcInit | crcByte | crcGet | crcCmp | crc8 | verify | cvtT | cvtH | rplyT | rplyH
deriving DecidableEq, Repr

/-- The four formats of R22: which operand fields carry operands and which must be zero. -/
inductive Format where
  /-- No operand: D0, D1 and X must be zero. -/
  | n
  /-- One byte in X: D0 and D1 must be zero. -/
  | b
  /-- A data pair in D0 and D1: X must be zero. -/
  | d
  /-- A reply: D0, D1 and X are all operands. -/
  | r
deriving DecidableEq, Repr

/-- The two ways a command word is illegal (R27), each with the opcode found. -/
inductive Illegal where
  /-- OP is not one of the ten listed values. -/
  | unlistedOpcode (op : Byte)
  /-- OP is listed, but a must-be-zero field of its format holds a nonzero bit. -/
  | nonzeroMustBeZero (op : Byte)
deriving DecidableEq, Repr

/-- The command's mnemonic. -/
def Instr.mnemonic : Instr → Mnemonic
  | .crcInit => .crcInit
  | .crcByte _ => .crcByte
  | .crcGet => .crcGet
  | .crcCmp _ => .crcCmp
  | .crc8 _ _ => .crc8
  | .verify _ _ _ => .verify
  | .cvtT _ => .cvtT
  | .cvtH _ => .cvtH
  | .rplyT _ _ _ => .rplyT
  | .rplyH _ _ _ => .rplyH

/-- The spelling of a mnemonic (R26, R29). -/
def Mnemonic.name : Mnemonic → String
  | .crcInit => "CRC.INIT"
  | .crcByte => "CRC.BYTE"
  | .crcGet => "CRC.GET"
  | .crcCmp => "CRC.CMP"
  | .crc8 => "CRC8"
  | .verify => "VERIFY"
  | .cvtT => "CVT.T"
  | .cvtH => "CVT.H"
  | .rplyT => "RPLY.T"
  | .rplyH => "RPLY.H"

/-- All mnemonics, in the table's order. -/
def Mnemonic.all : List Mnemonic :=
  [.crcInit, .crcByte, .crcGet, .crcCmp, .crc8, .verify, .cvtT, .cvtH, .rplyT, .rplyH]

/-- A line of the written form once its text is read (R29): a mnemonic and its operands, as written numbers. -/
structure AsmLine where
  mnemonic : Mnemonic
  operands : List Nat
deriving DecidableEq, Repr

/-- Why a written line is no command (R29). -/
inductive AsmError where
  /-- The first word of the line is none of the ten mnemonics. -/
  | unknownMnemonic
  /-- An operand is no decimal or hexadecimal number. -/
  | badNumber
  /-- The line has too few or too many operands for its mnemonic. -/
  | operandCount
  /-- An operand is outside its range: "an assembly error, not an encoding" (R29). -/
  | operandRange
deriving DecidableEq, Repr

/-- A command as a written line (R29): each operand as a number. -/
def Instr.written : Instr → AsmLine
  | .crcInit => ⟨.crcInit, []⟩
  | .crcByte b => ⟨.crcByte, [b.toNat]⟩
  | .crcGet => ⟨.crcGet, []⟩
  | .crcCmp e => ⟨.crcCmp, [e.toNat]⟩
  | .crc8 b0 b1 => ⟨.crc8, [b0.toNat, b1.toNat]⟩
  | .verify b0 b1 e => ⟨.verify, [b0.toNat, b1.toNat, e.toNat]⟩
  | .cvtT raw => ⟨.cvtT, [raw.toNat]⟩
  | .cvtH raw => ⟨.cvtH, [raw.toNat]⟩
  | .rplyT b0 b1 chk => ⟨.rplyT, [b0.toNat, b1.toNat, chk.toNat]⟩
  | .rplyH b0 b1 chk => ⟨.rplyH, [b0.toNat, b1.toNat, chk.toNat]⟩

end Sys2Proof
end

