-- ==== Sys2Proof/Machine/Operands.lean ====
section
/-! DEFINITION. Operand forms of the converter and of the replies: the raw reading, its status tag and its mask
(spec/20_memory.md R16; spec/41_convert.md R43 to R45). -/
namespace Sys2Proof.Machine

/-- The raw reading of two data bytes: the first data byte is bits 15:8 (R16). -/
def rawOf (b0 b1 : Byte) : Half := b0 ++ b1

/-- `mask`: bits 15:2 kept, bits 1:0 forced to 0 (R43). -/
def maskRaw (raw : Half) : Half := raw &&& Config.statusMask

/-- `tag`: the status tag of the unmasked raw reading, bits 1:0 (R44). -/
def tagOf (raw : Half) : BitVec 2 := raw.extractLsb' 0 2

/-- `expected_tag` of a measurement kind (R45). -/
def expectedTag : Kind → BitVec 2
  | .temperature => Config.tagTemperature
  | .humidity => Config.tagHumidity

/-- A raw reading matches a kind when both bits of its tag are those expected (R45). -/
def tagMatches (k : Kind) (raw : Half) : Bool := tagOf raw == expectedTag k

end Sys2Proof.Machine
end

