-- ==== Sys2Proof/Machine/Fixed.lean ====
section
/-! DEFINITION. The fixed-point arithmetic of the converter: exact integers and one division truncating toward zero
(spec/00_scope.md R4; spec/41_convert.md R46 to R49). -/
namespace Sys2Proof.Machine

/-- `tdiv(a, b)` for b > 0: division truncating toward zero (R4). -/
def tdiv (a b : Int) : Int := if 0 ≤ a then a / b else -((-a) / b)

/-- `tc16`: the 16-bit two's-complement pattern of an integer (R4, R49). -/
def tc16 (v : Int) : Half := BitVec.ofInt 16 v

/-- `int16`: the integer of a 16-bit two's-complement pattern (R4). -/
def int16 (p : Half) : Int := p.toInt

/-- `conv_T`, the temperature formula on a masked raw reading taken as an unsigned integer (R46). -/
def convT (m : Half) : Int := tdiv (Config.tOffset + Config.tSlope * (m.toNat : Int) + Config.tRound) Config.tDiv

/-- `conv_H`, the humidity formula on a masked raw reading taken as an unsigned integer (R47). -/
def convH (m : Half) : Int := tdiv (Config.hOffset + Config.hSlope * (m.toNat : Int) + Config.hRound) Config.hDiv

/-- `conv`, the formula of a measurement kind (R47). -/
def conv : Kind → Half → Int
  | .temperature, m => convT m
  | .humidity, m => convH m

end Sys2Proof.Machine
end

