-- ==== Sys2Proof/WellFormed.lean ====
section
/-! DEFINITION. Well-formed written lines and commands: the operand counts and ranges of spec/30_encoding.md R29.
A command's operands have their exact widths by type, so every `Instr` is well-formed
(`Sys2Proof.Laws.WellFormed`); the checks refuse written lines whose operands do not fit. -/
namespace Sys2Proof

/-- For each operand of a mnemonic, the first number that is too large for it (R29). -/
def Mnemonic.operandBounds : Mnemonic → List Nat
  | .crcInit => []
  | .crcByte => [256]
  | .crcGet => []
  | .crcCmp => [256]
  | .crc8 => [256, 256]
  | .verify => [256, 256, 256]
  | .cvtT => [65536]
  | .cvtH => [65536]
  | .rplyT => [256, 256, 256]
  | .rplyH => [256, 256, 256]

/-- The line has as many operands as its mnemonic takes (R29). -/
def AsmLine.countOk (line : AsmLine) : Bool :=
  line.operands.length == line.mnemonic.operandBounds.length

/-- Every operand is within its range (R29). -/
def AsmLine.rangeOk (line : AsmLine) : Bool :=
  (line.operands.zip line.mnemonic.operandBounds).all fun p => decide (p.1 < p.2)

/-- A written line that is a command: operand count and ranges as R29 says. -/
def AsmLine.wellFormed (line : AsmLine) : Bool :=
  line.countOk && line.rangeOk

/-- A command is well-formed when its written line is. -/
def Instr.wellFormed (i : Instr) : Bool :=
  i.written.wellFormed

end Sys2Proof
end

