-- ==== Sys2Proof/Decode.lean ====
section
/-! DEFINITION. Decoding of a command word and its inverse (spec/30_encoding.md R21 to R23, R26, R27): the fields,
the opcode map as a table of match patterns and masks, a total decoder that rejects by name, and the encoder. -/
namespace Sys2Proof

/-- OP, bits 31:24 (R21). -/
def opField (w : Word) : Byte := w.extractLsb' 24 8

/-- D0, bits 23:16 (R21). -/
def d0Field (w : Word) : Byte := w.extractLsb' 16 8

/-- D1, bits 15:8 (R21). -/
def d1Field (w : Word) : Byte := w.extractLsb' 8 8

/-- X, bits 7:0 (R21). -/
def xField (w : Word) : Byte := w.extractLsb' 0 8

/-- `raw = D0 : D1 = CW[23:8]` (R23; byte order: spec/20_memory.md R16). -/
def rawField (w : Word) : Half := w.extractLsb' 8 16

/-- A command word put together from its four fields (R21). -/
def wordOf (op d0 d1 x : Byte) : Word := op ++ d0 ++ d1 ++ x

/-- The mask of fixed bits of a format (R22). -/
def Format.mask : Format → Word
  | .n => 0xFFFFFFFF
  | .b => 0xFFFFFF00
  | .d => 0xFF0000FF
  | .r => 0xFF000000

/-- A row of the opcode map (R26): its mnemonic, its format and its match word. -/
structure OpcodeRow where
  mnemonic : Mnemonic
  format : Format
  pattern : Word
deriving DecidableEq, Repr

/-- The opcode map (R26). -/
def opcodeTable : List OpcodeRow :=
  [⟨.crcInit, .n, 0x01000000⟩,
   ⟨.crcByte, .b, 0x02000000⟩,
   ⟨.crcGet, .n, 0x03000000⟩,
   ⟨.crcCmp, .b, 0x04000000⟩,
   ⟨.crc8, .d, 0x10000000⟩,
   ⟨.verify, .r, 0x11000000⟩,
   ⟨.cvtT, .d, 0x20000000⟩,
   ⟨.cvtH, .d, 0x21000000⟩,
   ⟨.rplyT, .r, 0x30000000⟩,
   ⟨.rplyH, .r, 0x31000000⟩]

/-- A word is the command of a row iff `CW AND mask = match` (R22, R26). -/
def rowMatches (w : Word) (row : OpcodeRow) : Bool :=
  (w &&& row.format.mask) == row.pattern

/-- The command of a mnemonic with its operands taken from the word's fields as they stand (R23). -/
def commandOf (m : Mnemonic) (w : Word) : Instr :=
  match m with
  | .crcInit => .crcInit
  | .crcByte => .crcByte (xField w)
  | .crcGet => .crcGet
  | .crcCmp => .crcCmp (xField w)
  | .crc8 => .crc8 (d0Field w) (d1Field w)
  | .verify => .verify (d0Field w) (d1Field w) (xField w)
  | .cvtT => .cvtT (rawField w)
  | .cvtH => .cvtH (rawField w)
  | .rplyT => .rplyT (d0Field w) (d1Field w) (xField w)
  | .rplyH => .rplyH (d0Field w) (d1Field w) (xField w)

/-- Which of the two causes of R27 makes a word that matches no row illegal. -/
def illegalCause (w : Word) : Illegal :=
  if opcodeTable.any (fun row => opField row.pattern == opField w) then .nonzeroMustBeZero (opField w)
  else .unlistedOpcode (opField w)

/-- The decoder: total, the row that matches or the cause for which the word is illegal (R26, R27). -/
def decode (w : Word) : Except Illegal Instr :=
  match opcodeTable.find? (rowMatches w) with
  | some row => .ok (commandOf row.mnemonic w)
  | none => .error (illegalCause w)

/-- The encoder: the command word of a command, its fields as R22 and the encodings of R35 to R40, R50, R51, R54
and R55 lay them out. -/
def encode (i : Instr) : Word :=
  match i with
  | .crcInit => wordOf 0x01 0 0 0
  | .crcByte b => wordOf 0x02 0 0 b
  | .crcGet => wordOf 0x03 0 0 0
  | .crcCmp e => wordOf 0x04 0 0 e
  | .crc8 b0 b1 => wordOf 0x10 b0 b1 0
  | .verify b0 b1 e => wordOf 0x11 b0 b1 e
  | .cvtT raw => wordOf 0x20 (raw.extractLsb' 8 8) (raw.extractLsb' 0 8) 0
  | .cvtH raw => wordOf 0x21 (raw.extractLsb' 8 8) (raw.extractLsb' 0 8) 0
  | .rplyT b0 b1 chk => wordOf 0x30 b0 b1 chk
  | .rplyH b0 b1 chk => wordOf 0x31 b0 b1 chk

/-- The command word whose low `nbits` bits are those of `w` and whose other bits are zero. Every row of the table
has 32 bits, and the block takes a word whole: there is no memory that could store it in bytes (spec/20_memory.md R13). -/
def tableWord (nbits w : Nat) : Word := BitVec.ofNat 32 (w % 2 ^ nbits)

/-- The command the decoder reads from an opcode-table word, none where it rejects it. -/
def decodeTableWord (nbits w : Nat) : Option Instr :=
  match decode (tableWord nbits w) with
  | .ok i => some i
  | .error _ => none

end Sys2Proof
end

