-- ==== Sys2Proof/Machine/Flags.lean ====
section
/-! DEFINITION. Outcomes of a command. The block has no flag and no condition code (spec/10_state.md R10): what a
command reports is the status and the payload of its response word (spec/30_encoding.md R24, R25). -/
namespace Sys2Proof.Machine

/-- The status of a response (R25); the codes 0x3 to 0xE are never produced. -/
inductive Status where
  /-- The command was performed. -/
  | ok
  /-- The source's `ChecksumMismatch` (R58). -/
  | checksumMismatch
  /-- The source's `UnexpectedMeasurementKind` (R59). -/
  | unexpectedKind
  /-- The command word matches no row of the opcode map (R60). -/
  | illegal
deriving DecidableEq, Repr

/-- The status codes of R25. -/
def Status.code : Status → BitVec 4
  | .ok => 0x0
  | .checksumMismatch => 0x1
  | .unexpectedKind => 0x2
  | .illegal => 0xF

/-- A Boolean result: the payload 0x0001 (true) or 0x0000 (false) (R18, R24). -/
def boolPayload (v : Bool) : Half := if v then 0x0001 else 0x0000

/-- A checksum as a payload: `zext_16` (R4, R24). -/
def checksumPayload (v : Byte) : Half := v.zeroExtend 16

/-- The response word of `Respond(st, p)`: `RW = (st << 28) OR p` (R24). -/
def responseWord (st : Status) (p : Half) : Word :=
  (st.code.zeroExtend 32 <<< 28) ||| p.zeroExtend 32

end Sys2Proof.Machine
end

