-- ==== Sys2Proof/Machine/State.lean ====
section
/-! DEFINITION. The state of the block and of its host, the reset state, and the reasons a step could stop.
The block itself has one register and one reset input (spec/10_state.md R6, R11; spec/70_reset_and_hazards.md R68);
the other fields are the host side of the interface, the model's own (notes/assumptions/1.md, 2.md). -/
namespace Sys2Proof.Machine

/-- What the host does at the block's boundary (spec/70_reset_and_hazards.md R68, R74): one event is one step. -/
inductive HostEvent where
  /-- The host presents a command word and waits for its response (R74). -/
  | present (w : Word)
  /-- The host presents a command word and the reset input is asserted while that command is in progress:
  the command is abandoned (R68; one event is a DESIGN CHOICE, safe: notes/assumptions/7.md). -/
  | presentThenReset (w : Word)
  /-- The reset input is asserted (R68). -/
  | assertReset
  /-- The reset input is released (R68). -/
  | releaseReset
deriving DecidableEq, Repr

/-- The machine's state. -/
structure State where
  /-- The CRC register `C`, the block's only architectural state (R6). -/
  c : Byte
  /-- The level of the reset input, true while it is asserted (R68). -/
  inReset : Bool
  /-- The host's: what it will do next, in order (the model's own, DESIGN CHOICE, unsafe: notes/assumptions/1.md). -/
  script : List HostEvent
  /-- The host's: the response words it has taken, oldest first (the model's own, DESIGN CHOICE, unsafe: notes/assumptions/2.md). -/
  received : List Word
deriving DecidableEq, Repr

/-- Reasons the machine stops with a fault: none. "The block never hangs and never stops answering" (R63), and
"no behaviour of the block maps to a fault, a stuck state or a race" (spec/93_implementation_defined.md part 2).
Safe: nothing raises a fault (notes/assumptions/9.md). -/
inductive Fault where
deriving DecidableEq, Repr

/-- Reasons an instruction has no meaning. An illegal command word is NOT one of them: it is answered (R27, R60). -/
inductive Refusal where
  /-- The instruction is not modelled yet. Raised by nothing: every command has its meaning
  (notes/assumptions/9.md). Safe: it claims nothing. -/
  | notModelled (mnemonic : String)
deriving DecidableEq, Repr

/-- The machine right after the reset input is released: `C` = 0x00, nothing in progress, no response pending
(R12, R68), and a host that has done nothing yet (notes/assumptions/1.md, 2.md, 6.md). -/
def State.reset : State where
  c := Config.resetC
  inReset := false
  script := []
  received := []

end Sys2Proof.Machine
end

