-- ==== Sys2Proof/Machine/Ops.lean ====
section
/-! DEFINITION. The operations every command and the step share: writing `C`, answering a command, raising an error,
the reset input, and taking the host's next event. The block has no memory (spec/20_memory.md R13) and no other
register (spec/10_state.md R8 to R10), so there is no operation over them. -/
namespace Sys2Proof.Machine

/-- `C <- v` (R5). The only operation by which a command writes the register (R7). -/
def State.writeC (s : State) (v : Byte) : State := { s with c := v }

/-- `Respond(st, p)`: emit the one response word of this command (R5, R24); the host takes it (R74). -/
def State.respond (s : State) (st : Status) (p : Half) : State :=
  { s with received := s.received ++ [responseWord st p] }

/-- `raise e`: `Respond(code of e, 0x0000)` and nothing else (R5, R57, R62). This is the block's whole error
"entry": nothing is saved, no mode changes and control goes nowhere, so there is no return from it either (R63). -/
def State.raise (s : State) (e : Status) : State := s.respond e 0x0000

/-- The answer to an illegal command word: status ILLEGAL whatever the cause, `C` unchanged (R27, R60). -/
def State.answerIllegal (s : State) (_cause : Illegal) : State := s.raise .illegal

/-- The reset input is asserted: no command is accepted from here on (R68). `C` is held at its reset value
meanwhile (DESIGN CHOICE, unsafe: notes/assumptions/4.md). -/
def State.assertReset (s : State) : State := { s with c := Config.resetC, inReset := true }

/-- The reset input is released: `C` = 0x00, and commands are accepted again (R12, R68). Where it was not asserted
there is no release and nothing changes (DESIGN CHOICE, unsafe: notes/assumptions/7.md). -/
def State.releaseReset (s : State) : State :=
  if s.inReset then { s with c := Config.resetC, inReset := false } else s

/-- The block accepts a command unless its reset input is asserted (R68, R74); it is never busy (R66). -/
def State.accepts (s : State) : Bool := !s.inReset

/-- A word presented while the reset input is asserted is not accepted: no effect, no response
(R68; that it is lost is a DESIGN CHOICE, unsafe: notes/assumptions/5.md). -/
def State.turnAway (s : State) (_w : Word) : State := s

/-- A command in progress when the reset input is asserted is abandoned: its response is never produced (R68;
DESIGN CHOICE, safe: notes/assumptions/7.md). -/
def State.abandon (s : State) (_w : Word) : State := s.assertReset

/-- The host's next event, and the state in which the block meets it. -/
def State.takeEvent (s : State) : Option (HostEvent × State) :=
  match s.script with
  | [] => none
  | e :: rest => some (e, { s with script := rest })

end Sys2Proof.Machine
end

