-- ==== Sys2Proof/Machine/Convert.lean ====
section
/-! DEFINITION. The conversion commands: CVT.T, CVT.H (spec/41_convert.md R50, R51). -/
namespace Sys2Proof.Machine

/-- A bare conversion: mask, formula of the kind, value in two's complement under status OK. The tag is not
examined and `C` is neither read nor written (R50, R51). -/
def State.convert (s : State) (k : Kind) (raw : Half) : State :=
  s.respond .ok (tc16 (conv k (maskRaw raw)))

/-- CVT.T raw (R50). -/
def execCvtT (raw : Half) (s : State) : Host.Outcome State Fault Refusal :=
  .next (s.convert .temperature raw)

/-- CVT.H raw (R51). -/
def execCvtH (raw : Half) (s : State) : Host.Outcome State Fault Refusal :=
  .next (s.convert .humidity raw)

end Sys2Proof.Machine
end

