-- ==== Sys2Proof/Machine/Crc.lean ====
section
/-! DEFINITION. The functions of the CRC-8 unit (spec/40_crc.md R31 to R34). -/
namespace Sys2Proof.Machine

/-- `crc_bit`, one iteration: shift left, and XOR with 0x31 if the top bit was set (R31). -/
def crcBit (c : Byte) : Byte :=
  if c.getLsbD 7 then (c <<< 1) ^^^ Config.crcPoly8 else c <<< 1

/-- `n` iterations of `crc_bit`. -/
def crcBits : Nat → Byte → Byte
  | 0, c => c
  | n + 1, c => crcBits n (crcBit c)

/-- `crc_byte`: XOR the whole byte into the register, then exactly 8 iterations (R32). -/
def crcByte (c b : Byte) : Byte := crcBits 8 (c ^^^ b)

/-- `crc8`: the checksum of two data bytes, the first one first (R33; spec/20_memory.md R15). -/
def crc8 (b0 b1 : Byte) : Byte := crcByte (crcByte Config.crcInit b0) b1

/-- `verify`: the computed checksum equals the expected one in all 8 bits (R34). -/
def verify (b0 b1 expected : Byte) : Bool := crc8 b0 b1 == expected

end Sys2Proof.Machine
end

