-- ==== Sys2Proof/Machine/Pair.lean ====
section
/-! DEFINITION. The two-byte checksum commands: CRC8, VERIFY (spec/40_crc.md R39, R40). -/
namespace Sys2Proof.Machine

/-- CRC8 b0, b1: `C <- crc8(b0, b1); Respond(OK, zext_16(C))`, whatever `C` held before (R39). -/
def execCrc8 (b0 b1 : Byte) (s : State) : Host.Outcome State Fault Refusal :=
  .next ((s.writeC (crc8 b0 b1)).respond .ok (checksumPayload (crc8 b0 b1)))

/-- VERIFY b0, b1, e: `C <- crc8(b0, b1)`, then 1 if `C` = e else 0 under status OK (R40). -/
def execVerify (b0 b1 e : Byte) (s : State) : Host.Outcome State Fault Refusal :=
  .next ((s.writeC (crc8 b0 b1)).respond .ok (boolPayload (verify b0 b1 e)))

end Sys2Proof.Machine
end

