-- ==== Sys2Proof/Machine/Reply.lean ====
section
/-! DEFINITION. Validation and conversion of a 3-byte reply: `check_reply` and the commands RPLY.T, RPLY.H
(spec/42_reply.md R53 to R56; errors: spec/60_exceptions.md R58, R59, R61). -/
namespace Sys2Proof.Machine

/-- The result of `check_reply` (R53). -/
inductive ReplyResult where
  | ok (v : Int)
  | checksumMismatch
  | unexpectedMeasurementKind
deriving DecidableEq, Repr

/-- `check_reply`: the checksum first, then the tag, then the conversion (R53). -/
def checkReply (k : Kind) (b0 b1 chk : Byte) : ReplyResult :=
  if !verify b0 b1 chk then .checksumMismatch
  else if !tagMatches k (rawOf b0 b1) then .unexpectedMeasurementKind
  else .ok (conv k (maskRaw (rawOf b0 b1)))

/-- The response to a reply's result: the value under OK, or the error raised (R54, R55). -/
def State.answerReply (s : State) : ReplyResult → State
  | .ok v => s.respond .ok (tc16 v)
  | .checksumMismatch => s.raise .checksumMismatch
  | .unexpectedMeasurementKind => s.raise .unexpectedKind

/-- A reply command: `C` takes the computed checksum in all three outcomes, before the outcome is decided
(R54, R55). -/
def State.reply (s : State) (k : Kind) (b0 b1 chk : Byte) : State :=
  (s.writeC (crc8 b0 b1)).answerReply (checkReply k b0 b1 chk)

/-- RPLY.T b0, b1, chk (R54). -/
def execRplyT (b0 b1 chk : Byte) (s : State) : Host.Outcome State Fault Refusal :=
  .next (s.reply .temperature b0 b1 chk)

/-- RPLY.H b0, b1, chk (R55). -/
def execRplyH (b0 b1 chk : Byte) (s : State) : Host.Outcome State Fault Refusal :=
  .next (s.reply .humidity b0 b1 chk)

end Sys2Proof.Machine
end

