-- ==== Sys2Proof/Machine/Streaming.lean ====
section
/-! DEFINITION. The streaming commands: CRC.INIT, CRC.BYTE, CRC.GET, CRC.CMP (spec/40_crc.md R35 to R38). -/
namespace Sys2Proof.Machine

/-- CRC.INIT: `C <- 0x00; Respond(OK, 0x0000)` (R35). -/
def execCrcInit (s : State) : Host.Outcome State Fault Refusal :=
  .next ((s.writeC Config.crcInit).respond .ok 0x0000)

/-- CRC.BYTE b: `C <- crc_byte(C, b); Respond(OK, zext_16(C))` with the new `C` (R36). -/
def execCrcByte (b : Byte) (s : State) : Host.Outcome State Fault Refusal :=
  .next ((s.writeC (crcByte s.c b)).respond .ok (checksumPayload (crcByte s.c b)))

/-- CRC.GET: `Respond(OK, zext_16(C))`, `C` unchanged (R37). -/
def execCrcGet (s : State) : Host.Outcome State Fault Refusal :=
  .next (s.respond .ok (checksumPayload s.c))

/-- CRC.CMP e: 1 if `C` = e else 0, under status OK; `C` unchanged (R38). -/
def execCrcCmp (e : Byte) (s : State) : Host.Outcome State Fault Refusal :=
  .next (s.respond .ok (boolPayload (s.c == e)))

end Sys2Proof.Machine
end

