-- ==== Sys2Proof/Machine/Dispatch.lean ====
section
/-! DEFINITION. One arm per command of the opcode map (spec/30_encoding.md R26). -/
namespace Sys2Proof.Machine

def exec (i : Instr) (s : State) : Host.Outcome State Fault Refusal :=
  match i with
  | .crcInit => Sys2Proof.Machine.execCrcInit s
  | .crcByte b => Sys2Proof.Machine.execCrcByte b s
  | .crcGet => Sys2Proof.Machine.execCrcGet s
  | .crcCmp e => Sys2Proof.Machine.execCrcCmp e s
  | .crc8 b0 b1 => Sys2Proof.Machine.execCrc8 b0 b1 s
  | .verify b0 b1 e => Sys2Proof.Machine.execVerify b0 b1 e s
  | .cvtT raw => Sys2Proof.Machine.execCvtT raw s
  | .cvtH raw => Sys2Proof.Machine.execCvtH raw s
  | .rplyT b0 b1 chk => Sys2Proof.Machine.execRplyT b0 b1 chk s
  | .rplyH b0 b1 chk => Sys2Proof.Machine.execRplyH b0 b1 chk s

end Sys2Proof.Machine
end

