-- ==== Sys2Proof/Machine/Step.lean ====
section
/-! DEFINITION. One step: the block meets the host's next event (spec/20_memory.md R19; spec/70_reset_and_hazards.md
R68, R74), and a command word is decoded, executed and answered as one indivisible step. -/
namespace Sys2Proof.Machine

/-- An accepted command word: the command it decodes to is executed, an illegal word is answered ILLEGAL (R26, R27). -/
def runWord (w : Word) (s : State) : Host.Outcome State Fault Refusal :=
  match decode w with
  | .ok i => exec i s
  | .error cause => .next (s.answerIllegal cause)

/-- One step. With no event left the block waits for the next command (R9). -/
def step (s : State) : Host.Outcome State Fault Refusal :=
  match s.takeEvent with
  | none => .next s
  | some (.present w, s') => if s'.accepts then runWord w s' else .next (s'.turnAway w)
  | some (.presentThenReset w, s') => .next (s'.abandon w)
  | some (.assertReset, s') => .next s'.assertReset
  | some (.releaseReset, s') => .next s'.releaseReset

/-- The state whose host presents the given opcode-table word next to a block out of reset. It stands for the
host's presentation of a word: no program is stored anywhere (R9, R13; notes/assumptions/1.md). -/
def State.withFetchWord (s : State) (nbits w : Nat) : State :=
  { s with inReset := false, script := .present (tableWord nbits w) :: s.script }

end Sys2Proof.Machine
end

