-- ==== Sys2Proof/Machine/Assembler.lean ====
section
/-! DEFINITION. The written form of a command (spec/30_encoding.md R29): one command per line, mnemonic, operands
separated by commas, numbers in decimal or 0x hexadecimal, case not significant, a comment from `;` on. White space
and blank lines: notes/assumptions/8.md. It is no part of the block: nothing of step depends on it. -/
namespace Sys2Proof.Machine

/-- The text without the white space at its two ends. -/
def trimBlanks (cs : List Char) : List Char :=
  ((cs.dropWhile Char.isWhitespace).reverse.dropWhile Char.isWhitespace).reverse

/-- The pieces of a text between its commas. -/
def splitCommas : List Char → List (List Char)
  | [] => [[]]
  | c :: cs =>
    match splitCommas cs with
    | [] => [[c]]
    | p :: ps => if c = ',' then [] :: p :: ps else (c :: p) :: ps

/-- The value of a digit of base 10 or 16, in either case. -/
def digitValue (base : Nat) (c : Char) : Option Nat :=
  let n := c.toUpper.toNat
  let v := if 48 ≤ n ∧ n ≤ 57 then some (n - 48) else if 65 ≤ n ∧ n ≤ 70 then some (n - 55) else none
  v.filter (· < base)

/-- The value of a run of digits, most significant first. -/
def digitsValue (base : Nat) : Nat → List Char → Option Nat
  | acc, [] => some acc
  | acc, c :: cs =>
    match digitValue base c with
    | some v => digitsValue base (acc * base + v) cs
    | none => none

/-- A number: digits in decimal, or in hexadecimal after 0x (R29); at least one digit. -/
def readNumber (cs : List Char) : Option Nat :=
  match cs with
  | [] => none
  | '0' :: x :: d :: ds => if x.toUpper = 'X' then digitsValue 16 0 (d :: ds) else digitsValue 10 0 cs
  | _ => digitsValue 10 0 cs

/-- The operands of a line, each a number. -/
def readOperands : List (List Char) → Option (List Nat)
  | [] => some []
  | p :: ps =>
    match readNumber (trimBlanks p), readOperands ps with
    | some v, some vs => some (v :: vs)
    | _, _ => none

/-- The mnemonic spelled so, in either case (R29). -/
def readMnemonic (cs : List Char) : Option Mnemonic :=
  Mnemonic.all.find? fun m => m.name.toList == cs.map Char.toUpper

/-- The text of a line that is not its comment. -/
def lineBody (cs : List Char) : List Char := trimBlanks (cs.takeWhile (· != ';'))

/-- A line of text: none where it holds no command, else its mnemonic and operands (R29). -/
def readLine (cs : List Char) : Except AsmError (Option AsmLine) :=
  let body := lineBody cs
  let rest := trimBlanks (body.dropWhile fun c => !c.isWhitespace)
  if body.isEmpty then .ok none
  else
    match readMnemonic (body.takeWhile fun c => !c.isWhitespace) with
    | none => .error .unknownMnemonic
    | some m =>
      match readOperands (if rest.isEmpty then [] else splitCommas rest) with
      | none => .error .badNumber
      | some ops => .ok (some ⟨m, ops⟩)

/-- The command of a line whose operand count is right; `raw` is assembled as D0 = raw[15:8], D1 = raw[7:0] by the
encoder (R29). -/
def commandOfLine (line : AsmLine) : Option Instr :=
  match line.mnemonic, line.operands with
  | .crcInit, [] => some .crcInit
  | .crcByte, [b] => some (.crcByte (BitVec.ofNat 8 b))
  | .crcGet, [] => some .crcGet
  | .crcCmp, [e] => some (.crcCmp (BitVec.ofNat 8 e))
  | .crc8, [b0, b1] => some (.crc8 (BitVec.ofNat 8 b0) (BitVec.ofNat 8 b1))
  | .verify, [b0, b1, e] => some (.verify (BitVec.ofNat 8 b0) (BitVec.ofNat 8 b1) (BitVec.ofNat 8 e))
  | .cvtT, [raw] => some (.cvtT (BitVec.ofNat 16 raw))
  | .cvtH, [raw] => some (.cvtH (BitVec.ofNat 16 raw))
  | .rplyT, [b0, b1, chk] => some (.rplyT (BitVec.ofNat 8 b0) (BitVec.ofNat 8 b1) (BitVec.ofNat 8 chk))
  | .rplyH, [b0, b1, chk] => some (.rplyH (BitVec.ofNat 8 b0) (BitVec.ofNat 8 b1) (BitVec.ofNat 8 chk))
  | _, _ => none

/-- The command of a written line, or why it is none (R29). -/
def assemble (line : AsmLine) : Except AsmError Instr :=
  if !line.rangeOk then .error .operandRange
  else
    match commandOfLine line with
    | some i => .ok i
    | none => .error .operandCount

/-- A line of text to its command, none where it holds none (R29). -/
def assembleText (cs : List Char) : Except AsmError (Option Instr) :=
  match readLine cs with
  | .error e => .error e
  | .ok none => .ok none
  | .ok (some line) =>
    match assemble line with
    | .error e => .error e
    | .ok i => .ok (some i)

end Sys2Proof.Machine
end

