-- ==== Sys2Proof/Safety.lean ====
section
/-! DEFINITION. The terms claims are stated in: what a legal response is, what a run is, and a REFERENCE of the whole
block written a second time from the rules, on plain numbers: the transaction (`C`, command word) to (`C`, response
word), with the opcode map read by numeric fields, the CRC in the 9-bit formulation of spec/40_crc.md R41 law 6 and
the division of the library. Nothing of the reference is used by the step; claims compare the two. -/
namespace Sys2Proof.Machine

/-- ST, bits 31:28 of a response word (spec/30_encoding.md R24). -/
def statusField (rw : Word) : BitVec 4 := rw.extractLsb' 28 4

/-- Bits 27:16 of a response word, always 0 (R24). -/
def zeroField (rw : Word) : BitVec 12 := rw.extractLsb' 16 12

/-- P, bits 15:0 of a response word (R24). -/
def payloadField (rw : Word) : Half := rw.extractLsb' 0 16

/-- A response word the block may produce: one of the four statuses, zeros in bits 27:16, and payload 0x0000 with
every nonzero status (R24, R25). -/
def legalResponse (rw : Word) : Bool :=
  zeroField rw == 0 &&
    (statusField rw == 0x0 ||
      ((statusField rw == 0x1 || statusField rw == 0x2 || statusField rw == 0xF) && payloadField rw == 0))

/-- Every response the host has taken is a legal one. -/
def State.answersLegal (s : State) : Bool := s.received.all legalResponse

/-- `k` steps of the machine, stopping at a fault or a refusal. -/
def runSteps : Nat → State → Host.Outcome State Fault Refusal
  | 0, s => .next s
  | k + 1, s =>
    match step s with
    | .next t => runSteps k t
    | .fault r => .fault r
    | .refused r => .refused r

/-- A host that presents the words in order, each one once the previous one is answered (spec/20_memory.md R19). -/
def commandScript (ws : List Word) : List HostEvent := ws.map .present

/-- One iteration in the 9-bit formulation: shift first, XOR 0x131 when bit 8 is set (spec/40_crc.md R41 law 6). -/
def refCrcBit (r : Nat) : Nat := if 2 * r < 256 then 2 * r else (2 * r) ^^^ 0x131

/-- A byte in the 9-bit formulation. -/
def refCrcByte (c b : Nat) : Nat :=
  refCrcBit (refCrcBit (refCrcBit (refCrcBit (refCrcBit (refCrcBit (refCrcBit (refCrcBit (c ^^^ b))))))))

/-- One iteration in a register of unbounded width: bit 7 tested, nothing discarded (spec/40_crc.md R41 law 6). -/
def wideCrcBit (r : Nat) : Nat := if r.testBit 7 then (r <<< 1) ^^^ 0x31 else r <<< 1

/-- A byte in a register of unbounded width. -/
def wideCrcByte (c b : Nat) : Nat :=
  wideCrcBit (wideCrcBit (wideCrcBit (wideCrcBit (wideCrcBit (wideCrcBit (wideCrcBit (wideCrcBit (c ^^^ b))))))))

/-- The 16-bit two's-complement pattern of an integer, as a number: `i mod 65536` (spec/00_scope.md R4). -/
def refPayload (v : Int) : Nat := (v % 65536).toNat

/-- The temperature payload of a raw reading: its two low bits dropped, then R46 with the division of the library. -/
def refTemperature (raw : Nat) : Nat := refPayload ((4393 * (4 * (raw / 4) : Int) - 76750848).tdiv 16384)

/-- The humidity payload of a raw reading (R47). -/
def refHumidity (raw : Nat) : Nat := refPayload ((125 * (4 * (raw / 4) : Int) - 376832).tdiv 32768)

/-- The answer to a reply: checksum test, tag test, value (R53, R61), with the status in bits 31:28. -/
def refReply (crc chk tag wanted value : Nat) : Nat :=
  if crc ≠ chk then 0x10000000 else if tag ≠ wanted then 0x20000000 else value

/-- The transaction of the block: from the value of `C` and a command word to the new value of `C` and the response
word (spec/30_encoding.md R26, R27; spec/40_crc.md R35 to R40; spec/41_convert.md R50, R51; spec/42_reply.md R54,
R55). -/
def refTransact (c w : Nat) : Nat × Nat :=
  let op := w / 16777216
  let d0 := w / 65536 % 256
  let d1 := w / 256 % 256
  let x := w % 256
  let raw := 256 * d0 + d1
  let crc := refCrcByte (refCrcByte 0 d0) d1
  if op = 0x01 ∧ d0 = 0 ∧ d1 = 0 ∧ x = 0 then (0, 0)
  else if op = 0x02 ∧ d0 = 0 ∧ d1 = 0 then (refCrcByte c x, refCrcByte c x)
  else if op = 0x03 ∧ d0 = 0 ∧ d1 = 0 ∧ x = 0 then (c, c)
  else if op = 0x04 ∧ d0 = 0 ∧ d1 = 0 then (c, if c = x then 1 else 0)
  else if op = 0x10 ∧ x = 0 then (crc, crc)
  else if op = 0x11 then (crc, if crc = x then 1 else 0)
  else if op = 0x20 ∧ x = 0 then (c, refTemperature raw)
  else if op = 0x21 ∧ x = 0 then (c, refHumidity raw)
  else if op = 0x30 then (crc, refReply crc x (d1 % 4) 0 (refTemperature raw))
  else if op = 0x31 then (crc, refReply crc x (d1 % 4) 2 (refHumidity raw))
  else (c, 0xF0000000)

/-- The reference transaction on the block's own types. -/
def transact (c : Byte) (w : Word) : Byte × Word :=
  (BitVec.ofNat 8 (refTransact c.toNat w.toNat).1, BitVec.ofNat 32 (refTransact c.toNat w.toNat).2)

/-- The fold of the reference transaction over a sequence of command words: the last value of `C` and the responses
in order (spec/20_memory.md R19). -/
def transcript : Byte → List Word → Byte × List Word
  | c, [] => (c, [])
  | c, w :: ws => ((transcript (transact c w).1 ws).1, (transact c w).2 :: (transcript (transact c w).1 ws).2)

/-- The word is one of the commands that write `C` (spec/10_state.md R7): opcodes 0x01, 0x02, 0x10, 0x11, 0x30 and
0x31, where the word is legal. -/
def writesC (w : Word) : Bool :=
  match decode w with
  | .ok (.crcInit) => true
  | .ok (.crcByte _) => true
  | .ok (.crcGet) => false
  | .ok (.crcCmp _) => false
  | .ok (.crc8 _ _) => true
  | .ok (.verify _ _ _) => true
  | .ok (.cvtT _) => false
  | .ok (.cvtH _) => false
  | .ok (.rplyT _ _ _) => true
  | .ok (.rplyH _ _ _) => true
  | .error _ => false

/-- A 24-bit reply b0 : b1 : chk passes the checksum test (spec/40_crc.md R34, R42). -/
def replyVerifies (r : BitVec 24) : Bool :=
  verify (r.extractLsb' 16 8) (r.extractLsb' 8 8) (r.extractLsb' 0 8)

/-- The 24-bit reply of two data bytes with their own checksum (R42). -/
def goodReply (b0 b1 : Byte) : BitVec 24 := b0 ++ b1 ++ crc8 b0 b1

/-- The last response the host holds after an outcome that goes on. -/
def lastResponse : Host.Outcome State Fault Refusal → Option Word
  | .next t => t.received.getLast?
  | .fault _ => none
  | .refused _ => none

end Sys2Proof.Machine
end

