-- ==== Sys2Proof/Certificates/Slice0/Obligations.lean ====
section
/-! DEFINITION. The statements for the provers, from the numbered rules of spec/. Result statements are equations
`exec i s = next t` for the `t` of the rule, so each says at once that the command completes, its result and its frame:
what `t` does not name is as in `s`. -/
open Sys2Proof Sys2Proof.Machine

/-! ### Words and commands -/

/-- One word of each row of R26, and illegal words of both causes of R27, decode as spec/95_test_vectors.md sections
2.5, 3.4, 4 and 5 say. A sanity statement. -/
def Obligations.SampleWordsDecode : Prop :=
  decode 0x01000000 = .ok .crcInit ∧ decode 0x020000EF = .ok (.crcByte 0xEF) ∧ decode 0x03000000 = .ok .crcGet ∧
  decode 0x040000F5 = .ok (.crcCmp 0xF5) ∧ decode 0x10123400 = .ok (.crc8 0x12 0x34) ∧
  decode 0x110100F4 = .ok (.verify 0x01 0x00 0xF4) ∧ decode 0x20667000 = .ok (.cvtT 0x6670) ∧
  decode 0x217C8200 = .ok (.cvtH 0x7C82) ∧ decode 0x30443CB2 = .ok (.rplyT 0x44 0x3C 0xB2) ∧
  decode 0x310C4A52 = .ok (.rplyH 0x0C 0x4A 0x52) ∧ decode 0x00000000 = .error (.unlistedOpcode 0x00) ∧
  decode 0x10010001 = .error (.nonzeroMustBeZero 0x10) ∧ decode 0x32400089 = .error (.unlistedOpcode 0x32)

/-- A word is the command of a row of R26 iff `CW AND mask = match`, with its operands from the fields of R21 to R23
as they stand: the ten rows with the spec's own masks and match words. -/
def Obligations.WordIsCommandIffMaskedMatch : Prop :=
  ∀ w : Word,
    (w &&& 0xFFFFFFFF = 0x01000000 ↔ decode w = .ok .crcInit) ∧
    (w &&& 0xFFFFFF00 = 0x02000000 ↔ decode w = .ok (.crcByte (w.extractLsb' 0 8))) ∧
    (w &&& 0xFFFFFFFF = 0x03000000 ↔ decode w = .ok .crcGet) ∧
    (w &&& 0xFFFFFF00 = 0x04000000 ↔ decode w = .ok (.crcCmp (w.extractLsb' 0 8))) ∧
    (w &&& 0xFF0000FF = 0x10000000 ↔ decode w = .ok (.crc8 (w.extractLsb' 16 8) (w.extractLsb' 8 8))) ∧
    (w &&& 0xFF000000 = 0x11000000 ↔
      decode w = .ok (.verify (w.extractLsb' 16 8) (w.extractLsb' 8 8) (w.extractLsb' 0 8))) ∧
    (w &&& 0xFF0000FF = 0x20000000 ↔ decode w = .ok (.cvtT (w.extractLsb' 8 16))) ∧
    (w &&& 0xFF0000FF = 0x21000000 ↔ decode w = .ok (.cvtH (w.extractLsb' 8 16))) ∧
    (w &&& 0xFF000000 = 0x30000000 ↔
      decode w = .ok (.rplyT (w.extractLsb' 16 8) (w.extractLsb' 8 8) (w.extractLsb' 0 8))) ∧
    (w &&& 0xFF000000 = 0x31000000 ↔
      decode w = .ok (.rplyH (w.extractLsb' 16 8) (w.extractLsb' 8 8) (w.extractLsb' 0 8)))

/-- Every command is well-formed, and decoding its encoding gives it back, with every operand at every value. -/
def Obligations.DecodeOfEncode : Prop :=
  ∀ i : Instr, i.wellFormed = true ∧ decode (encode i) = .ok i

/-- A legal word is the encoding of the command it decodes to: no bit of a word is dropped. -/
def Obligations.EncodeOfDecode : Prop :=
  ∀ (w : Word) (i : Instr), decode w = .ok i → encode i = w

/-- The two causes of R27, by name: a word is refused as unlisted exactly when its opcode is none of the ten, and as
holding a nonzero must-be-zero bit exactly when its opcode is listed and a field its format R22 requires to be zero is
not. -/
def Obligations.IllegalCausesNamed : Prop :=
  ∀ w : Word,
    (decode w = .error (.unlistedOpcode (w.extractLsb' 24 8)) ↔
      w.extractLsb' 24 8 ∉ ([0x01, 0x02, 0x03, 0x04, 0x10, 0x11, 0x20, 0x21, 0x30, 0x31] : List Byte)) ∧
    (decode w = .error (.nonzeroMustBeZero (w.extractLsb' 24 8)) ↔
      (w.extractLsb' 24 8 ∈ ([0x01, 0x03] : List Byte) ∧ w.extractLsb' 0 24 ≠ 0#24) ∨
      (w.extractLsb' 24 8 ∈ ([0x02, 0x04] : List Byte) ∧ w.extractLsb' 8 16 ≠ 0#16) ∨
      (w.extractLsb' 24 8 ∈ ([0x10, 0x20, 0x21] : List Byte) ∧ w.extractLsb' 0 8 ≠ 0#8))

/-- R29: the written line of a command assembles to that command; a line assembles to some command exactly when it has
the operand count and the ranges of R29, so that any other line is an assembly error; and the command it assembles to is
the one written, with every operand as it stands in the line. -/
def Obligations.WrittenLineAssembles : Prop :=
  (∀ i : Instr, assemble i.written = .ok i) ∧
  (∀ line : AsmLine, (∃ i, assemble line = .ok i) ↔ line.wellFormed = true) ∧
  (∀ (line : AsmLine) (i : Instr), assemble line = .ok i → i.written = line)

/-! ### The functions of the CRC unit -/

/-- R31 to R34: `crc_bit` both ways its rule writes it, `crc_byte` with the whole byte XORed in before exactly 8
iterations, `crc8` from the initial value 0x00 with the first byte first, `verify`; and the rules' worked examples. -/
def Obligations.CrcFunctionsAsRuled : Prop :=
  (∀ c : Byte, crcBit c = (if c.getLsbD 7 = true then (c <<< 1) ^^^ 0x31 else c <<< 1) ∧
    (crcBit c).toNat = ((2 * c.toNat) % 256) ^^^ (if 0x80 ≤ c.toNat then 0x31 else 0x00)) ∧
  crcBit 0x80 = 0x31 ∧ crcBit 0x31 = 0x62 ∧ crcBit 0xC4 = 0xB9 ∧
  (∀ c b : Byte, crcByte c b =
    crcBit (crcBit (crcBit (crcBit (crcBit (crcBit (crcBit (crcBit (c ^^^ b))))))))) ∧
  crcByte 0x00 0x01 = 0x31 ∧ crcByte 0x31 0x00 = 0xF4 ∧
  (∀ b0 b1 : Byte, crc8 b0 b1 = crcByte (crcByte 0x00 b0) b1) ∧ crc8 0x00 0x00 = 0x00 ∧ crc8 0x01 0x00 = 0xF4 ∧
  (∀ b0 b1 e : Byte, verify b0 b1 e = true ↔ crc8 b0 b1 = e) ∧
  verify 0x01 0x00 0xF4 = true ∧ verify 0x01 0x00 0xF5 = false

/-- Laws 1 and 2 of spec/40_crc.md section 3 (marked derived there): the register and the data byte enter only through
their XOR, a byte equal to the register brings it to zero, and `crc_byte` is a bijection in each argument. -/
def Obligations.CrcByteXorAndBijection : Prop :=
  (∀ c b : Byte, crcByte c b = crcByte 0x00 (c ^^^ b) ∧ crcByte c c = 0x00) ∧
  (∀ c : Byte, Function.Bijective fun b => crcByte c b) ∧ (∀ b : Byte, Function.Bijective fun c => crcByte c b)

/-- Law 3 of spec/40_crc.md section 3 (marked derived there): linear over XOR. -/
def Obligations.Crc8LinearOverXor : Prop :=
  (∀ a0 a1 b0 b1 : Byte, crc8 (a0 ^^^ b0) (a1 ^^^ b1) = crc8 a0 a1 ^^^ crc8 b0 b1) ∧ crc8 0x00 0x00 = 0x00 ∧
  (∀ a b : Byte, crcBit (a ^^^ b) = crcBit a ^^^ crcBit b) ∧
  (∀ a b : Byte, crcByte 0x00 (a ^^^ b) = crcByte 0x00 a ^^^ crcByte 0x00 b)

/-- Law 4 of spec/40_crc.md section 3 (marked derived there): over GF(2), `crc8(b0, b1)` is the remainder of
M(x) * x^8 divided by G(x) = x^8 + x^5 + x^4 + 1, where M is the 16-bit string b0 : b1 read as a polynomial. -/
def Obligations.Crc8IsPolynomialRemainder : Prop :=
  ∀ b0 b1 : Byte,
    (Finset.sum (Finset.range 8) fun k =>
      if (crc8 b0 b1).getLsbD k = true then (Polynomial.X : Polynomial (ZMod 2)) ^ k else 0) =
    Polynomial.modByMonic
      ((Finset.sum (Finset.range 16) fun k =>
        if (b0 ++ b1).getLsbD k = true then (Polynomial.X : Polynomial (ZMod 2)) ^ k else 0) * Polynomial.X ^ 8)
      (Polynomial.X ^ 8 + Polynomial.X ^ 5 + Polynomial.X ^ 4 + 1)

/-- Law 5 of spec/40_crc.md section 3 (marked derived there), as the program it gives: from any state out of reset,
CRC.INIT, CRC.BYTE b0, CRC.BYTE b1, CRC.BYTE chk, CRC.CMP 0 answers 1 to its last command exactly when chk is the
checksum of b0, b1. -/
def Obligations.ResidueProgramVerifies : Prop :=
  ∀ (b0 b1 chk : Byte) (s : State), s.inReset = false →
    s.script = commandScript
      [encode .crcInit, encode (.crcByte b0), encode (.crcByte b1), encode (.crcByte chk), encode (.crcCmp 0x00)] →
    ∃ t, runSteps 5 s = .next t ∧
      t.received.getLast? = some (if chk = crc8 b0 b1 then 0x00000001 else 0x00000000)

/-- Law 6 of spec/40_crc.md section 3 (marked derived there): a register of unbounded width that tests bit 7 and keeps
the low 8 bits at the end, and the 9-bit formulation that shifts first and XORs 0x131, compute the same checksum. -/
def Obligations.RegisterWidthImmaterial : Prop :=
  ∀ b0 b1 : Byte,
    wideCrcByte (wideCrcByte 0 b0.toNat) b1.toNat % 256 = (crc8 b0 b1).toNat ∧
    refCrcByte (refCrcByte 0 b0.toNat) b1.toNat = (crc8 b0 b1).toNat

/-- Law 7 of spec/40_crc.md section 3 (marked derived there): each checksum value belongs to exactly 256 of the 65536
byte pairs. -/
def Obligations.ChecksumValuesEquallyShared : Prop :=
  ∀ v : Byte, (Finset.univ.filter fun p : Fin 256 × Fin 256 => crc8 (BitVec.ofFin p.1) (BitVec.ofFin p.2) = v).card = 256

/-- The source's testable property in R42: flipping any single bit in either input byte or in the expected checksum
makes `verify` fail. -/
def Obligations.SingleBitErrorsDetected : Prop :=
  ∀ (b0 b1 : Byte) (k : Nat), k < 8 →
    verify (b0 ^^^ (1#8 <<< k)) b1 (crc8 b0 b1) = false ∧ verify b0 (b1 ^^^ (1#8 <<< k)) (crc8 b0 b1) = false ∧
    verify b0 b1 (crc8 b0 b1 ^^^ (1#8 <<< k)) = false

/-- From R42 (marked derived there): over the 24-bit reply b0 : b1 : chk every error of exactly two bits is detected, and
every burst error confined to 8 or fewer consecutive bits. -/
def Obligations.DoubleAndBurstErrorsDetected : Prop :=
  (∀ (b0 b1 : Byte) (j k : Nat), j < 24 → k < 24 → j ≠ k →
    replyVerifies (goodReply b0 b1 ^^^ (1#24 <<< j) ^^^ (1#24 <<< k)) = false) ∧
  (∀ (b0 b1 e : Byte) (k : Nat), e ≠ 0#8 → k ≤ 16 →
    replyVerifies (goodReply b0 b1 ^^^ (e.zeroExtend 24 <<< k)) = false)

/-! ### The functions of the converter -/

/-- R43 to R45: the mask clears exactly the two low bits, the tag is those bits of the unmasked raw reading, a raw
reading is their sum; the expected tags, both bits compared, so that 0b01 and 0b11 match neither kind; and the rules'
worked examples. -/
def Obligations.MaskAndTag : Prop :=
  (∀ raw : Half, maskRaw raw = raw &&& 0xFFFC ∧ (maskRaw raw).toNat ≤ 65532 ∧ (maskRaw raw).toNat % 4 = 0 ∧
    maskRaw (maskRaw raw) = maskRaw raw ∧ tagOf raw = raw.extractLsb' 0 2 ∧ tagOf (maskRaw raw) = 0b00#2 ∧
    raw.toNat = (maskRaw raw).toNat + (tagOf raw).toNat) ∧
  maskRaw 0x4003 = 0x4000 ∧ maskRaw 0xFFFF = 0xFFFC ∧ maskRaw 0x0002 = 0x0000 ∧
  tagOf 0x8002 = 0b10#2 ∧ tagOf 0x4000 = 0b00#2 ∧
  expectedTag .temperature = 0b00#2 ∧ expectedTag .humidity = 0b10#2 ∧
  (∀ (k : Kind) (raw : Half), tagMatches k raw = true ↔ tagOf raw = expectedTag k) ∧
  (∀ (k : Kind) (raw : Half), tagOf raw = 0b01#2 ∨ tagOf raw = 0b11#2 → tagMatches k raw = false)

/-- R46 and R47 with the division of R4: both formulas, in both ways the rules write them; `tdiv` differs from floor
division exactly for a negative dividend that the divisor does not divide, where it is one greater; worked examples. -/
def Obligations.ConversionFormulas : Prop :=
  (∀ a b : Int, 0 < b →
    (0 ≤ a → tdiv a b = a / b) ∧ (a < 0 → b ∣ a → tdiv a b = a / b) ∧ (a < 0 → ¬ b ∣ a → tdiv a b = a / b + 1)) ∧
  (∀ m : Half, convT m = tdiv (-4685 * 16384 + 4393 * (m.toNat : Int) + 8192) 16384 ∧
    convT m = (4393 * (m.toNat : Int) - 76750848).tdiv 16384 ∧
    convH m = tdiv (-12 * 32768 + 125 * (m.toNat : Int) + 16384) 32768 ∧
    convH m = (125 * (m.toNat : Int) - 376832).tdiv 32768 ∧
    conv .temperature m = convT m ∧ conv .humidity m = convH m) ∧
  convT 0x4000 = -291 ∧ convT 0x0000 = -4684 ∧ convT 0xFFFC = 12886 ∧ convT 0x6670 = 2346 ∧
  convH 0x8000 = 113 ∧ convH 0x0000 = -11 ∧ convH 0xFFFC = 238

/-- R48 (e) (marked derived there): both functions are monotonically non-decreasing in the masked raw reading. -/
def Obligations.ConversionMonotone : Prop :=
  ∀ m m' : Half, m.toNat ≤ m'.toNat →
    convT (maskRaw m) ≤ convT (maskRaw m') ∧ convH (maskRaw m) ≤ convH (maskRaw m')

/-- R49 and R48 (c), (g) (all marked derived there): the ranges of the two results, both ends reached, the payload
loses nothing, the sign of the numerators (negative up to the bound of R48 (c), positive above it, never zero), and
exactly where the results are zero. -/
def Obligations.ConversionRangesAndZeros : Prop :=
  (∀ raw : Half,
    -4684 ≤ convT (maskRaw raw) ∧ convT (maskRaw raw) ≤ 12886 ∧ int16 (tc16 (convT (maskRaw raw))) = convT (maskRaw raw) ∧
    -11 ≤ convH (maskRaw raw) ∧ convH (maskRaw raw) ≤ 238 ∧ int16 (tc16 (convH (maskRaw raw))) = convH (maskRaw raw) ∧
    (4393 * ((maskRaw raw).toNat : Int) - 76750848 < 0 ↔ (maskRaw raw).toNat ≤ 17468) ∧
    (0 < 4393 * ((maskRaw raw).toNat : Int) - 76750848 ↔ 17468 < (maskRaw raw).toNat) ∧
    4393 * ((maskRaw raw).toNat : Int) - 76750848 ≠ 0 ∧
    (125 * ((maskRaw raw).toNat : Int) - 376832 < 0 ↔ (maskRaw raw).toNat ≤ 3012) ∧
    (0 < 125 * ((maskRaw raw).toNat : Int) - 376832 ↔ 3012 < (maskRaw raw).toNat) ∧
    125 * ((maskRaw raw).toNat : Int) - 376832 ≠ 0 ∧
    (convT (maskRaw raw) = 0 ↔ maskRaw raw = 0x443C ∨ maskRaw raw = 0x4440) ∧
    (convH (maskRaw raw) = 0 ↔ 0x0AC4 ≤ (maskRaw raw).toNat ∧ (maskRaw raw).toNat ≤ 0x0CCC)) ∧
  convT (maskRaw 0x0000) = -4684 ∧ convT (maskRaw 0xFFFF) = 12886 ∧
  convH (maskRaw 0x0000) = -11 ∧ convH (maskRaw 0xFFFF) = 238

/-- R52 (a) and (b) with R48 (d), corrected in one point (notes/assumptions/12.md): the temperature is the linear law T
in hundredths of a degree rounded to nearest with ties upward where T is at least -0.005, and one above that where it is
colder, EXCEPT at the masked raw reading 0x2000, where it is the rounded value itself; the humidity is in the same way
TWICE the linear law RH, which is half-percent units, with no exception. -/
def Obligations.ConversionAgainstLinearLaws : Prop :=
  ∀ (raw : Half) (T RH : ℚ),
    T = -4685 / 100 + 17572 / 100 * ((maskRaw raw).toNat : ℚ) / 65536 →
    RH = -6 + 125 * ((maskRaw raw).toNat : ℚ) / 65536 →
    convT (maskRaw raw) = ⌊100 * T + 1 / 2⌋ + (if -5 / 1000 ≤ T ∨ maskRaw raw = 0x2000 then 0 else 1) ∧
    convH (maskRaw raw) = ⌊2 * RH + 1 / 2⌋ + (if -1 / 4 ≤ RH then 0 else 1)

/-- What R48 (c) says of the temperature formula's numerator, that it "is never an exact multiple of the divisor while
negative" (marked derived there). It FAILS: at the masked raw reading 0x2000 the numerator is -40763392 =
-2488 * 16384 (notes/assumptions/12.md). The model follows the formula of R46. -/
def Obligations.NegativeNumeratorNeverMultiple : Prop :=
  ∀ raw : Half, 4393 * ((maskRaw raw).toNat : Int) - 76750848 < 0 →
    ¬ (16384 : Int) ∣ 4393 * ((maskRaw raw).toNat : Int) - 76750848

/-! ### What each command does -/

/-- R35: CRC.INIT sets `C` to 0x00 and answers OK with 0x0000. -/
def Obligations.CrcInitClearsRegister : Prop :=
  encode .crcInit = 0x01000000 ∧
  ∀ s : State, exec .crcInit s = .next { s with c := 0x00, received := s.received ++ [0x00000000] }

/-- R36: CRC.BYTE advances `C` by the byte and answers OK with the new `C`; its corner cases. -/
def Obligations.CrcByteAdvancesRegister : Prop :=
  ∀ (b : Byte) (s : State),
    encode (.crcByte b) = 0x02000000 ||| b.zeroExtend 32 ∧
    exec (.crcByte b) s =
      .next { s with c := crcByte s.c b, received := s.received ++ [(crcByte s.c b).zeroExtend 32] } ∧
    crcByte 0x31 0x00 = 0xF4 ∧ crcByte 0x00 0x00 = 0x00 ∧ crcByte s.c s.c = 0x00

/-- R37: CRC.GET answers OK with `C` and changes nothing. -/
def Obligations.CrcGetReadsRegister : Prop :=
  encode .crcGet = 0x03000000 ∧
  ∀ s : State, exec .crcGet s = .next { s with received := s.received ++ [s.c.zeroExtend 32] }

/-- R38: CRC.CMP answers OK with 1 if `C` equals the operand, else OK with 0, and changes nothing. -/
def Obligations.CrcCmpComparesRegister : Prop :=
  ∀ (e : Byte) (s : State),
    encode (.crcCmp e) = 0x04000000 ||| e.zeroExtend 32 ∧
    exec (.crcCmp e) s =
      .next { s with received := s.received ++ [if s.c = e then 0x00000001 else 0x00000000] }

/-- R39: CRC8 sets `C` to the checksum of its operands, whatever it held, and answers OK with it; X must be zero. -/
def Obligations.Crc8LoadsChecksum : Prop :=
  (∀ (b0 b1 : Byte) (s : State),
    encode (.crc8 b0 b1) = 0x10000000 ||| (b0.zeroExtend 32 <<< 16) ||| (b1.zeroExtend 32 <<< 8) ∧
    exec (.crc8 b0 b1) s =
      .next { s with c := crc8 b0 b1, received := s.received ++ [(crc8 b0 b1).zeroExtend 32] }) ∧
  ∀ b0 b1 x : Byte, x ≠ 0#8 → decode (wordOf 0x10 b0 b1 x) = .error (.nonzeroMustBeZero 0x10)

/-- R40: VERIFY sets `C` to the checksum of its data bytes in both outcomes and answers OK with 1 if it equals the
operand, else OK with 0; every word of its opcode is legal. -/
def Obligations.VerifyLoadsAndCompares : Prop :=
  ∀ (b0 b1 e : Byte) (s : State),
    encode (.verify b0 b1 e) =
      0x11000000 ||| (b0.zeroExtend 32 <<< 16) ||| (b1.zeroExtend 32 <<< 8) ||| e.zeroExtend 32 ∧
    decode (0x11000000 ||| (b0.zeroExtend 32 <<< 16) ||| (b1.zeroExtend 32 <<< 8) ||| e.zeroExtend 32) =
      .ok (.verify b0 b1 e) ∧
    exec (.verify b0 b1 e) s =
      .next { s with
        c := crc8 b0 b1
        received := s.received ++ [if crc8 b0 b1 = e then 0x00000001 else 0x00000000] }

/-- R50: CVT.T answers OK with the value of the temperature formula for the raw reading less its two low bits, in two's
complement, and changes nothing; X must be zero. The formula is written with numbers here. -/
def Obligations.CvtTConverts : Prop :=
  (∀ (raw : Half) (s : State),
    encode (.cvtT raw) = 0x20000000 ||| (raw.zeroExtend 32 <<< 8) ∧
    exec (.cvtT raw) s =
      .next { s with
        received := s.received ++
          [(BitVec.ofInt 16 ((-4685 * 16384 + 4393 * (4 * (raw.toNat / 4) : Int) + 8192).tdiv 16384)).zeroExtend 32] }) ∧
  ∀ d0 d1 x : Byte, x ≠ 0#8 → decode (wordOf 0x20 d0 d1 x) = .error (.nonzeroMustBeZero 0x20)

/-- R51: CVT.H, likewise with the humidity formula; bits 3:2 of the raw reading change the result by at most 1. -/
def Obligations.CvtHConverts : Prop :=
  (∀ (raw : Half) (s : State),
    encode (.cvtH raw) = 0x21000000 ||| (raw.zeroExtend 32 <<< 8) ∧
    exec (.cvtH raw) s =
      .next { s with
        received := s.received ++
          [(BitVec.ofInt 16 ((-12 * 32768 + 125 * (4 * (raw.toNat / 4) : Int) + 16384).tdiv 32768)).zeroExtend 32] }) ∧
  (∀ d0 d1 x : Byte, x ≠ 0#8 → decode (wordOf 0x21 d0 d1 x) = .error (.nonzeroMustBeZero 0x21)) ∧
  ∀ m m' : Half, m.toNat / 16 = m'.toNat / 16 → convH (maskRaw m) ≤ convH (maskRaw m') + 1

/-- R53: `check_reply` tests the checksum first, then the tag, then converts; its worked examples. -/
def Obligations.CheckReplyOrder : Prop :=
  (∀ (k : Kind) (b0 b1 chk : Byte),
    (verify b0 b1 chk = false → checkReply k b0 b1 chk = .checksumMismatch) ∧
    (verify b0 b1 chk = true → tagOf (b0 ++ b1) ≠ expectedTag k →
      checkReply k b0 b1 chk = .unexpectedMeasurementKind) ∧
    (verify b0 b1 chk = true → tagOf (b0 ++ b1) = expectedTag k →
      checkReply k b0 b1 chk = .ok (conv k (maskRaw (b0 ++ b1))))) ∧
  checkReply .temperature 0x40 0x00 0x89 = .ok (-291) ∧ checkReply .humidity 0x80 0x02 0x41 = .ok 113 ∧
  checkReply .temperature 0x80 0x02 0x41 = .unexpectedMeasurementKind ∧
  checkReply .temperature 0x40 0x00 0x88 = .checksumMismatch ∧
  checkReply .temperature 0x80 0x02 0x40 = .checksumMismatch

/-- A reply that passes both tests completes with its value: RPLY.T (R54) sets `C` to the checksum and answers OK with
the temperature of the raw reading b0 : b1. -/
def Obligations.RplyTAcceptsGoodReply : Prop :=
  ∀ (b0 b1 chk : Byte) (s : State), crc8 b0 b1 = chk → b1.toNat % 4 = 0 →
    exec (.rplyT b0 b1 chk) s =
      .next { s with
        c := chk
        received := s.received ++ [(tc16 (convT (maskRaw (b0 ++ b1)))).zeroExtend 32] } ∧
    int16 (tc16 (convT (maskRaw (b0 ++ b1)))) =
      (4393 * (256 * (b0.toNat : Int) + (b1.toNat : Int)) - 76750848).tdiv 16384

/-- A reply that passes both tests completes with its value: RPLY.H (R55), whose tag is 0b10. -/
def Obligations.RplyHAcceptsGoodReply : Prop :=
  ∀ (b0 b1 chk : Byte) (s : State), crc8 b0 b1 = chk → b1.toNat % 4 = 2 →
    exec (.rplyH b0 b1 chk) s =
      .next { s with
        c := chk
        received := s.received ++ [(tc16 (convH (maskRaw (b0 ++ b1)))).zeroExtend 32] } ∧
    int16 (tc16 (convH (maskRaw (b0 ++ b1)))) =
      (125 * (256 * (b0.toNat : Int) + (b1.toNat : Int) - 2) - 376832).tdiv 32768

/-- R54: RPLY.T in all its outcomes: `C` is the computed checksum in each, a wrong checksum is reported first, a wrong
tag next, and only a reply without either yields a value; every word of its opcode is legal. -/
def Obligations.RplyTOutcomes : Prop :=
  ∀ (b0 b1 chk : Byte) (s : State),
    encode (.rplyT b0 b1 chk) =
      0x30000000 ||| (b0.zeroExtend 32 <<< 16) ||| (b1.zeroExtend 32 <<< 8) ||| chk.zeroExtend 32 ∧
    decode (0x30000000 ||| (b0.zeroExtend 32 <<< 16) ||| (b1.zeroExtend 32 <<< 8) ||| chk.zeroExtend 32) =
      .ok (.rplyT b0 b1 chk) ∧
    exec (.rplyT b0 b1 chk) s =
      .next { s with
        c := crc8 b0 b1
        received := s.received ++
          [if crc8 b0 b1 ≠ chk then 0x10000000 else if b1.extractLsb' 0 2 ≠ 0b00#2 then 0x20000000
            else (tc16 (convT (maskRaw (b0 ++ b1)))).zeroExtend 32] }

/-- R55: RPLY.H in all its outcomes. -/
def Obligations.RplyHOutcomes : Prop :=
  ∀ (b0 b1 chk : Byte) (s : State),
    encode (.rplyH b0 b1 chk) =
      0x31000000 ||| (b0.zeroExtend 32 <<< 16) ||| (b1.zeroExtend 32 <<< 8) ||| chk.zeroExtend 32 ∧
    decode (0x31000000 ||| (b0.zeroExtend 32 <<< 16) ||| (b1.zeroExtend 32 <<< 8) ||| chk.zeroExtend 32) =
      .ok (.rplyH b0 b1 chk) ∧
    exec (.rplyH b0 b1 chk) s =
      .next { s with
        c := crc8 b0 b1
        received := s.received ++
          [if crc8 b0 b1 ≠ chk then 0x10000000 else if b1.extractLsb' 0 2 ≠ 0b10#2 then 0x20000000
            else (tc16 (convH (maskRaw (b0 ++ b1)))).zeroExtend 32] }

/-- R58: a reply whose checksum is wrong, whatever its tag, is answered 0x10000000, with the computed checksum left in
`C` and nothing else changed. -/
def Obligations.ChecksumMismatchReported : Prop :=
  ∀ (b0 b1 chk : Byte) (s : State), crc8 b0 b1 ≠ chk →
    exec (.rplyT b0 b1 chk) s = .next { s with c := crc8 b0 b1, received := s.received ++ [0x10000000] } ∧
    exec (.rplyH b0 b1 chk) s = .next { s with c := crc8 b0 b1, received := s.received ++ [0x10000000] }

/-- R59: a reply whose checksum is right and whose tag is not the one expected is answered 0x20000000, with the
checksum left in `C` and nothing else changed. -/
def Obligations.UnexpectedKindReported : Prop :=
  ∀ (b0 b1 chk : Byte) (s : State), crc8 b0 b1 = chk →
    (tagOf (b0 ++ b1) ≠ 0b00#2 →
      exec (.rplyT b0 b1 chk) s = .next { s with c := chk, received := s.received ++ [0x20000000] }) ∧
    (tagOf (b0 ++ b1) ≠ 0b10#2 →
      exec (.rplyH b0 b1 chk) s = .next { s with c := chk, received := s.received ++ [0x20000000] })

/-- R56 (marked derived there), the source's invariant: a reply command answers OK exactly when the checksum validated
and the tag matches, then with the value of the formula, and in every other case with payload 0x0000. -/
def Obligations.ValueOnlyFromValidReply : Prop :=
  ∀ (b0 b1 chk : Byte) (s : State),
    (∃ r : Word, exec (.rplyT b0 b1 chk) s = .next { s with c := crc8 b0 b1, received := s.received ++ [r] } ∧
      (statusField r = 0#4 ↔ crc8 b0 b1 = chk ∧ b1.extractLsb' 0 2 = 0b00#2) ∧
      (statusField r = 0#4 → int16 (payloadField r) = convT (maskRaw (b0 ++ b1))) ∧
      (statusField r ≠ 0#4 → payloadField r = 0#16)) ∧
    (∃ r : Word, exec (.rplyH b0 b1 chk) s = .next { s with c := crc8 b0 b1, received := s.received ++ [r] } ∧
      (statusField r = 0#4 ↔ crc8 b0 b1 = chk ∧ b1.extractLsb' 0 2 = 0b10#2) ∧
      (statusField r = 0#4 → int16 (payloadField r) = convH (maskRaw (b0 ++ b1))) ∧
      (statusField r ≠ 0#4 → payloadField r = 0#16))

/-- R56 (marked derived there): of the 2^24 possible replies exactly 16384 are accepted, for each kind. -/
def Obligations.AcceptedReplyCount : Prop :=
  (Finset.univ.filter fun p : Fin 256 × Fin 256 × Fin 256 =>
    (lastResponse (exec (.rplyT (BitVec.ofFin p.1) (BitVec.ofFin p.2.1) (BitVec.ofFin p.2.2)) State.reset)).map
      statusField = some 0#4).card = 16384 ∧
  (Finset.univ.filter fun p : Fin 256 × Fin 256 × Fin 256 =>
    (lastResponse (exec (.rplyH (BitVec.ofFin p.1) (BitVec.ofFin p.2.1) (BitVec.ofFin p.2.2)) State.reset)).map
      statusField = some 0#4).card = 16384

/-! ### The step, illegal words and reset -/

/-- R9, R19: a step out of reset at a presented word that decodes to a (well-formed) command is that command's own
execution, with the word taken from the host's script (the script is the model's own, notes/assumptions/1.md). -/
def Obligations.StepRunsDecodedCommand : Prop :=
  ∀ (s : State) (w : Word) (rest : List HostEvent) (i : Instr),
    s.inReset = false → s.script = .present w :: rest → decode w = .ok i → i.wellFormed = true →
    step s = exec i { s with script := rest }

/-- R60: a word that matches no row of the opcode map, written with the spec's own masks, is answered 0xF0000000, `C`
is unchanged, and the block is ready for the next command. -/
def Obligations.IllegalWordAnswered : Prop :=
  ∀ (s : State) (w : Word) (rest : List HostEvent), s.inReset = false → s.script = .present w :: rest →
    w &&& 0xFFFFFFFF ≠ 0x01000000 → w &&& 0xFFFFFF00 ≠ 0x02000000 → w &&& 0xFFFFFFFF ≠ 0x03000000 →
    w &&& 0xFFFFFF00 ≠ 0x04000000 → w &&& 0xFF0000FF ≠ 0x10000000 → w &&& 0xFF000000 ≠ 0x11000000 →
    w &&& 0xFF0000FF ≠ 0x20000000 → w &&& 0xFF0000FF ≠ 0x21000000 → w &&& 0xFF000000 ≠ 0x30000000 →
    w &&& 0xFF000000 ≠ 0x31000000 →
    step s = .next { s with script := rest, received := s.received ++ [0xF0000000] }

/-- R9: with no event left the block waits, and nothing changes (an empty script is the model's own,
notes/assumptions/1.md). -/
def Obligations.BlockWaitsForHost : Prop :=
  ∀ s : State, s.script = [] → step s = .next s

/-- R12: after reset `C` = 0x00, in the reset state itself and after the step that releases the reset input from any
state in which it is asserted; and no response is produced by reset, neither by the step that asserts the input, from any
state, nor by the step that releases it. Nothing is said of `C` while the input is asserted. -/
def Obligations.ResetClearsRegister : Prop :=
  State.reset.c = 0x00 ∧
  (∀ (s : State) (rest : List HostEvent), s.script = .assertReset :: rest →
    ∃ t, step s = .next t ∧ t.inReset = true ∧ t.script = rest ∧ t.received = s.received) ∧
  (∀ (s : State) (rest : List HostEvent), s.inReset = true → s.script = .releaseReset :: rest →
    step s = .next { c := 0x00, inReset := false, script := rest, received := s.received })

/-- From R68: in reset no word is accepted and no response produced, and after the release `C` = 0x00 and commands are
accepted, whatever was presented in between (that a word presented in reset is lost is the model's choice,
notes/assumptions/5.md). -/
def Obligations.NothingAnsweredInReset : Prop :=
  ∀ (ws : List Word) (s : State) (rest : List HostEvent), s.inReset = true →
    s.script = commandScript ws ++ .releaseReset :: rest →
    runSteps (ws.length + 1) s = .next { c := 0x00, inReset := false, script := rest, received := s.received }

/-- From R68: a command in progress when the reset input is asserted is abandoned, its response is never produced, and
after the release it is as if only reset had been applied (that this is one host event is the model's choice,
notes/assumptions/7.md). -/
def Obligations.CommandAbandonedByReset : Prop :=
  ∀ (s : State) (w : Word) (rest : List HostEvent),
    (s.script = .presentThenReset w :: .releaseReset :: rest ∨ s.script = .assertReset :: .releaseReset :: rest) →
    runSteps 2 s = .next { c := 0x00, inReset := false, script := rest, received := s.received }

/-- The reset state meets the invariant of `Obligations.ResponsesStayLegal`. -/
def Obligations.ResetAnswersLegal : Prop :=
  State.reset.answersLegal = true

/-! ### The whole machine -/

/-- R63: the block never hangs and never stops: every step and every run goes on, from every state. -/
def Obligations.MachineNeverStops : Prop :=
  (∀ s : State, ∃ t, step s = .next t) ∧ ∀ (k : Nat) (s : State), ∃ t, runSteps k s = .next t

/-- From R24 and R74: exactly one response for each accepted word, legal or not, after the earlier ones and of the form
of R24, and none for any other event. -/
def Obligations.OneResponsePerCommand : Prop :=
  ∀ s t : State, step s = .next t →
    (∀ (w : Word) (rest : List HostEvent), s.inReset = false → s.script = .present w :: rest →
      ∃ (st : BitVec 4) (p : Half),
        t.received = s.received ++ [(st.zeroExtend 32 <<< 28) ||| p.zeroExtend 32] ∧
        (st = 0x0#4 ∨ ((st = 0x1#4 ∨ st = 0x2#4 ∨ st = 0xF#4) ∧ p = 0#16)) ∧
        t.inReset = false ∧ t.script = rest) ∧
    ((∀ (w : Word) (rest : List HostEvent), s.script ≠ .present w :: rest) ∨ s.inReset = true →
      t.received = s.received)

/-- An invariant every step keeps (R24, R25): every response the host holds has one of the four statuses, zeros in bits
27:16, and payload 0x0000 with every nonzero status. -/
def Obligations.ResponsesStayLegal : Prop :=
  ∀ s t : State, s.answersLegal = true → step s = .next t → t.answersLegal = true

/-- The step refines the reference: for every value of `C` and every one of the 2^32 command words, legal or not, a
step out of reset leaves the register and answers the response that `transact` computes on plain numbers. -/
def Obligations.StepRefinesTransaction : Prop :=
  ∀ (s : State) (w : Word) (rest : List HostEvent), s.inReset = false → s.script = .present w :: rest →
    step s = .next { s with
      c := (transact s.c w).1
      script := rest
      received := s.received ++ [(transact s.c w).2] }

/-- From R19: a host that presents words in order gets the responses in order, and the state after them is the fold of
the command rules over the sequence. -/
def Obligations.RunIsFoldOfTransactions : Prop :=
  ∀ (ws : List Word) (s : State) (rest : List HostEvent), s.inReset = false → s.script = commandScript ws ++ rest →
    runSteps ws.length s = .next { s with
      c := (transcript s.c ws).1
      script := rest
      received := s.received ++ (transcript s.c ws).2 }

/-- From R7: a word that is not CRC.INIT, CRC.BYTE, CRC8, VERIFY, RPLY.T or RPLY.H leaves `C` alone, whether legal or
not, and only reset writes it otherwise, to 0x00 (that it is 0x00 from the assertion of the input on is the model's
choice, notes/assumptions/4.md). -/
def Obligations.OnlyListedWritersWriteC : Prop :=
  ∀ s t : State, step s = .next t → t.c ≠ s.c →
    (∃ (w : Word) (rest : List HostEvent), s.inReset = false ∧ s.script = .present w :: rest ∧
      (w.extractLsb' 24 8) ∈ ([0x01, 0x02, 0x10, 0x11, 0x30, 0x31] : List Byte) ∧ writesC w = true) ∨
    (t.c = 0x00 ∧ ∃ (e : HostEvent) (rest : List HostEvent), s.script = e :: rest ∧ ∀ w : Word, e ≠ .present w)

/-- From R7: only CRC.BYTE, CRC.GET and CRC.CMP read `C`: every other command answers the same word from every state,
and those of them that write `C` leave the same value in it. -/
def Obligations.OnlyListedReadersReadC : Prop :=
  ∀ i : Instr, i.mnemonic ≠ .crcByte → i.mnemonic ≠ .crcGet → i.mnemonic ≠ .crcCmp →
    ∃ r : Word,
      (∀ s : State, ∃ t, exec i s = .next t ∧ t.received = s.received ++ [r]) ∧
      ((∃ v : Byte, ∀ s : State, ∃ t, exec i s = .next t ∧ t.c = v) ∨
        (∀ s : State, ∃ t, exec i s = .next t ∧ t.c = s.c))

/-- From R7: every value of `C` is reached: CRC.INIT followed by one CRC.BYTE sets any chosen value, and exactly one
byte does. -/
def Obligations.EveryRegisterValueReached : Prop :=
  ∀ v : Byte, ∃! b : Byte, ∀ s : State, s.inReset = false →
    s.script = commandScript [encode .crcInit, encode (.crcByte b)] → ∃ t, runSteps 2 s = .next t ∧ t.c = v

/-- From R63: no memory of past commands but `C`: two machines that differ only in what their hosts have received do the
same, step by step, for any number of steps, and what the hosts receive from here on is the same. -/
def Obligations.NoMemoryButRegister : Prop :=
  ∀ (k : Nat) (s : State) (past : List Word),
    ∃ (c : Byte) (r : Bool) (script : List HostEvent) (new : List Word),
      runSteps k s = .next ⟨c, r, script, s.received ++ new⟩ ∧
      runSteps k { s with received := past } = .next ⟨c, r, script, past ++ new⟩

/-- From R18: repeating a command is idempotent for every command except CRC.BYTE: the second execution leaves the same
`C` and answers the same word. -/
def Obligations.RepeatingIsIdempotent : Prop :=
  ∀ (i : Instr) (s : State), i.mnemonic ≠ .crcByte →
    ∃ (v : Byte) (r : Word),
      exec i s = .next { s with c := v, received := s.received ++ [r] } ∧
      exec i { s with c := v, received := s.received ++ [r] } =
        .next { s with c := v, received := s.received ++ [r, r] }

/-- From R29 (marked derived there): CRC8 b0, b1 has the effect and the response of the last of CRC.INIT; CRC.BYTE b0;
CRC.BYTE b1, and VERIFY b0, b1, e those of the last of CRC.INIT; CRC.BYTE b0; CRC.BYTE b1; CRC.CMP e. -/
def Obligations.CompositesEqualStreams : Prop :=
  ∀ (b0 b1 e : Byte) (s : State), s.inReset = false →
    (∃ c r r1 r2,
      runSteps 1 { s with script := commandScript [encode (.crc8 b0 b1)] } =
        .next { s with c := c, script := [], received := s.received ++ [r] } ∧
      runSteps 3 { s with script := commandScript [encode .crcInit, encode (.crcByte b0), encode (.crcByte b1)] } =
        .next { s with c := c, script := [], received := s.received ++ [r1, r2, r] }) ∧
    (∃ c r r1 r2 r3,
      runSteps 1 { s with script := commandScript [encode (.verify b0 b1 e)] } =
        .next { s with c := c, script := [], received := s.received ++ [r] } ∧
      runSteps 4
          { s with script :=
              commandScript [encode .crcInit, encode (.crcByte b0), encode (.crcByte b1), encode (.crcCmp e)] } =
        .next { s with c := c, script := [], received := s.received ++ [r1, r2, r3, r] })

/-- From R29 (marked derived there): RPLY.k answers OK with payload p iff VERIFY answers 1, the tag of b1 is that of
kind k, and CVT.k of b0 : b1 answers p. -/
def Obligations.ReplyEqualsVerifyThenConvert : Prop :=
  ∀ (b0 b1 chk : Byte) (p : Half) (s : State),
    (lastResponse (exec (.rplyT b0 b1 chk) s) = some (p.zeroExtend 32) ↔
      lastResponse (exec (.verify b0 b1 chk) s) = some 0x00000001 ∧ b1.toNat % 4 = 0 ∧
        lastResponse (exec (.cvtT (b0 ++ b1)) s) = some (p.zeroExtend 32)) ∧
    (lastResponse (exec (.rplyH b0 b1 chk) s) = some (p.zeroExtend 32) ↔
      lastResponse (exec (.verify b0 b1 chk) s) = some 0x00000001 ∧ b1.toNat % 4 = 2 ∧
        lastResponse (exec (.cvtH (b0 ++ b1)) s) = some (p.zeroExtend 32))

/-- From R70: a streaming sequence into which only commands that do not write `C` intervene (legal or not) computes the
same register as its CRC.BYTE commands alone. -/
def Obligations.StreamSurvivesHarmlessCommands : Prop :=
  ∀ (ws : List Word) (s : State) (rest : List HostEvent), s.inReset = false →
    s.script = commandScript ws ++ rest →
    (∀ w ∈ ws, writesC w = true → w.extractLsb' 24 8 = 0x02#8) →
    ∃ t, runSteps ws.length s = .next t ∧ t.script = rest ∧
      t.c = ((ws.filter writesC).map fun w => w.extractLsb' 0 8).foldl crcByte s.c

/-- From R69: right after a reset applied in any state, with no CRC.INIT, streaming two bytes computes their
checksum. -/
def Obligations.StreamingAfterReset : Prop :=
  ∀ (b0 b1 : Byte) (s : State),
    s.script = .assertReset :: .releaseReset ::
      commandScript [encode (.crcByte b0), encode (.crcByte b1), encode .crcGet] →
    ∃ r, runSteps 5 s = .next
      { c := crc8 b0 b1, inReset := false, script := [],
        received := s.received ++ [r, (crc8 b0 b1).zeroExtend 32, (crc8 b0 b1).zeroExtend 32] }
end

