-- ==== Sys2Proof/Laws/Encoding.lean ====
section
/-! SUPPORT. Fields and masks of a command word: each field of a word put together is the field it was given, a word
is its four fields, and a mask test is a test of fields. -/
namespace Sys2Proof

variable (op d0 d1 x : Byte)

/-- Appending a byte below a bit vector, as numbers. -/
theorem toNat_append_byte {n : Nat} (v : BitVec n) (b : Byte) : (v ++ b).toNat = v.toNat * 256 + b.toNat := by
  rw [BitVec.toNat_append, ← Nat.shiftLeft_add_eq_or_of_lt b.isLt, Nat.shiftLeft_eq]

/-- A command word as a number, from its fields. -/
theorem wordOf_toNat :
    (wordOf op d0 d1 x).toNat = op.toNat * 16777216 + d0.toNat * 65536 + d1.toNat * 256 + x.toNat := by
  have h : (wordOf op d0 d1 x).toNat = ((op.toNat * 256 + d0.toNat) * 256 + d1.toNat) * 256 + x.toNat :=
    (toNat_append_byte _ x).trans (by rw [toNat_append_byte, toNat_append_byte])
  rw [h]
  ring

theorem opField_toNat (w : Word) : (opField w).toNat = w.toNat / 16777216 := by
  have := w.isLt
  rw [opField, BitVec.extractLsb'_toNat, Nat.shiftRight_eq_div_pow]
  omega

theorem d0Field_toNat (w : Word) : (d0Field w).toNat = w.toNat / 65536 % 256 := by
  rw [d0Field, BitVec.extractLsb'_toNat, Nat.shiftRight_eq_div_pow]

theorem d1Field_toNat (w : Word) : (d1Field w).toNat = w.toNat / 256 % 256 := by
  rw [d1Field, BitVec.extractLsb'_toNat, Nat.shiftRight_eq_div_pow]

theorem xField_toNat (w : Word) : (xField w).toNat = w.toNat % 256 := by
  rw [xField, BitVec.extractLsb'_toNat, Nat.shiftRight_eq_div_pow]
  omega

theorem rawField_toNat (w : Word) : (rawField w).toNat = w.toNat / 256 % 65536 := by
  rw [rawField, BitVec.extractLsb'_toNat, Nat.shiftRight_eq_div_pow]

@[simp] theorem opField_wordOf : opField (wordOf op d0 d1 x) = op := by
  have := d0.isLt; have := d1.isLt; have := x.isLt
  apply BitVec.eq_of_toNat_eq
  rw [opField_toNat, wordOf_toNat]
  omega

@[simp] theorem d0Field_wordOf : d0Field (wordOf op d0 d1 x) = d0 := by
  have := d0.isLt; have := d1.isLt; have := x.isLt
  apply BitVec.eq_of_toNat_eq
  rw [d0Field_toNat, wordOf_toNat]
  omega

@[simp] theorem d1Field_wordOf : d1Field (wordOf op d0 d1 x) = d1 := by
  have := d1.isLt; have := x.isLt
  apply BitVec.eq_of_toNat_eq
  rw [d1Field_toNat, wordOf_toNat]
  omega

@[simp] theorem xField_wordOf : xField (wordOf op d0 d1 x) = x := by
  have := x.isLt
  apply BitVec.eq_of_toNat_eq
  rw [xField_toNat, wordOf_toNat]
  omega

/-- Every word is put together from its four fields. -/
theorem wordOf_fields (w : Word) : wordOf (opField w) (d0Field w) (d1Field w) (xField w) = w := by
  apply BitVec.eq_of_toNat_eq
  rw [wordOf_toNat, opField_toNat, d0Field_toNat, d1Field_toNat, xField_toNat]
  omega

theorem wordOf_inj {op d0 d1 x op' d0' d1' x' : Byte} :
    wordOf op d0 d1 x = wordOf op' d0' d1' x' ↔ op = op' ∧ d0 = d0' ∧ d1 = d1' ∧ x = x' := by
  constructor
  · intro h
    exact ⟨by simpa using congrArg opField h, by simpa using congrArg d0Field h, by simpa using congrArg d1Field h,
      by simpa using congrArg xField h⟩
  · rintro ⟨rfl, rfl, rfl, rfl⟩
    rfl

/-- The raw reading of a word is its D0 and D1 fields (R23). -/
theorem rawField_eq_append (w : Word) : rawField w = d0Field w ++ d1Field w := by
  apply BitVec.eq_of_toNat_eq
  rw [rawField_toNat]
  exact (by rw [d0Field_toNat, d1Field_toNat]; omega : _ = (d0Field w).toNat * 256 + (d1Field w).toNat).trans
    (toNat_append_byte _ _).symm

@[simp] theorem rawField_high (w : Word) : (rawField w).extractLsb' 8 8 = d0Field w := by
  apply BitVec.eq_of_toNat_eq
  rw [BitVec.extractLsb'_toNat, rawField_toNat, d0Field_toNat, Nat.shiftRight_eq_div_pow]
  omega

@[simp] theorem rawField_low (w : Word) : (rawField w).extractLsb' 0 8 = d1Field w := by
  apply BitVec.eq_of_toNat_eq
  rw [BitVec.extractLsb'_toNat, rawField_toNat, d1Field_toNat, Nat.shiftRight_eq_div_pow]
  omega

/-- A raw reading is its two bytes. -/
theorem half_eq_append (raw : Half) : raw.extractLsb' 8 8 ++ raw.extractLsb' 0 8 = raw := by
  have := raw.isLt
  apply BitVec.eq_of_toNat_eq
  refine (toNat_append_byte _ _).trans ?_
  rw [BitVec.extractLsb'_toNat, BitVec.extractLsb'_toNat, Nat.shiftRight_eq_div_pow, Nat.shiftRight_eq_div_pow]
  omega

theorem wordOf_and (op' d0' d1' x' : Byte) :
    wordOf op d0 d1 x &&& wordOf op' d0' d1' x' = wordOf (op &&& op') (d0 &&& d0') (d1 &&& d1') (x &&& x') := by
  show ((op ++ d0 ++ d1 ++ x) &&& (op' ++ d0' ++ d1' ++ x') : BitVec (8 + 8 + 8 + 8)) = _
  rw [BitVec.and_append, BitVec.and_append, BitVec.and_append]
  rfl

theorem and_ff (b : Byte) : b &&& 255#8 = b := BitVec.and_allOnes

/-- The mask test of a row of format N is a test of all four fields (R22). -/
theorem maskN_iff (w : Word) (o : Byte) :
    w &&& Format.mask .n = wordOf o 0 0 0 ↔ opField w = o ∧ d0Field w = 0 ∧ d1Field w = 0 ∧ xField w = 0 := by
  conv_lhs => rw [← wordOf_fields w, show Format.mask .n = wordOf 0xFF 0xFF 0xFF 0xFF from rfl, wordOf_and, wordOf_inj]
  simp [and_ff]

/-- The mask test of a row of format B is a test of OP, D0 and D1 (R22). -/
theorem maskB_iff (w : Word) (o : Byte) :
    w &&& Format.mask .b = wordOf o 0 0 0 ↔ opField w = o ∧ d0Field w = 0 ∧ d1Field w = 0 := by
  conv_lhs => rw [← wordOf_fields w, show Format.mask .b = wordOf 0xFF 0xFF 0xFF 0 from rfl, wordOf_and, wordOf_inj]
  simp [and_ff]

/-- The mask test of a row of format D is a test of OP and X (R22). -/
theorem maskD_iff (w : Word) (o : Byte) :
    w &&& Format.mask .d = wordOf o 0 0 0 ↔ opField w = o ∧ xField w = 0 := by
  conv_lhs => rw [← wordOf_fields w, show Format.mask .d = wordOf 0xFF 0 0 0xFF from rfl, wordOf_and, wordOf_inj]
  simp [and_ff]

/-- The mask test of a row of format R is a test of OP (R22). -/
theorem maskR_iff (w : Word) (o : Byte) :
    w &&& Format.mask .r = wordOf o 0 0 0 ↔ opField w = o := by
  conv_lhs => rw [← wordOf_fields w, show Format.mask .r = wordOf 0xFF 0 0 0 from rfl, wordOf_and, wordOf_inj]
  simp [and_ff]

/-- The first row that matches, tried one row at a time. -/
theorem elim_find_cons {α : Type} (w : Word) (row : OpcodeRow) (rows : List OpcodeRow) (none : α)
    (some : OpcodeRow → α) :
    ((row :: rows).find? (rowMatches w)).elim none some =
      if w &&& row.format.mask = row.pattern then some row else (rows.find? (rowMatches w)).elim none some := by
  by_cases h : w &&& row.format.mask = row.pattern
  · simp [rowMatches, h]
  · simp [rowMatches, h]

/-- The decoder as a test of each row's mask in the table's order, with the masks and match words of R22 and R26. -/
theorem decode_eq (w : Word) : decode w =
    if w &&& 0xFFFFFFFF = 0x01000000 then .ok .crcInit
    else if w &&& 0xFFFFFF00 = 0x02000000 then .ok (.crcByte (xField w))
    else if w &&& 0xFFFFFFFF = 0x03000000 then .ok .crcGet
    else if w &&& 0xFFFFFF00 = 0x04000000 then .ok (.crcCmp (xField w))
    else if w &&& 0xFF0000FF = 0x10000000 then .ok (.crc8 (d0Field w) (d1Field w))
    else if w &&& 0xFF000000 = 0x11000000 then .ok (.verify (d0Field w) (d1Field w) (xField w))
    else if w &&& 0xFF0000FF = 0x20000000 then .ok (.cvtT (rawField w))
    else if w &&& 0xFF0000FF = 0x21000000 then .ok (.cvtH (rawField w))
    else if w &&& 0xFF000000 = 0x30000000 then .ok (.rplyT (d0Field w) (d1Field w) (xField w))
    else if w &&& 0xFF000000 = 0x31000000 then .ok (.rplyH (d0Field w) (d1Field w) (xField w))
    else .error (illegalCause w) := by
  have h : decode w = (opcodeTable.find? (rowMatches w)).elim (.error (illegalCause w))
      fun row => .ok (commandOf row.mnemonic w) := by
    unfold decode
    cases opcodeTable.find? (rowMatches w) <;> rfl
  rw [h]
  unfold opcodeTable
  iterate 10 rw [elim_find_cons]
  rfl

/-- The same decoder as a test of the word's fields: opcode, and the fields its format requires to be zero (R22). -/
theorem decode_eq_fields (w : Word) : decode w =
    if opField w = 0x01 ∧ d0Field w = 0 ∧ d1Field w = 0 ∧ xField w = 0 then .ok .crcInit
    else if opField w = 0x02 ∧ d0Field w = 0 ∧ d1Field w = 0 then .ok (.crcByte (xField w))
    else if opField w = 0x03 ∧ d0Field w = 0 ∧ d1Field w = 0 ∧ xField w = 0 then .ok .crcGet
    else if opField w = 0x04 ∧ d0Field w = 0 ∧ d1Field w = 0 then .ok (.crcCmp (xField w))
    else if opField w = 0x10 ∧ xField w = 0 then .ok (.crc8 (d0Field w) (d1Field w))
    else if opField w = 0x11 then .ok (.verify (d0Field w) (d1Field w) (xField w))
    else if opField w = 0x20 ∧ xField w = 0 then .ok (.cvtT (rawField w))
    else if opField w = 0x21 ∧ xField w = 0 then .ok (.cvtH (rawField w))
    else if opField w = 0x30 then .ok (.rplyT (d0Field w) (d1Field w) (xField w))
    else if opField w = 0x31 then .ok (.rplyH (d0Field w) (d1Field w) (xField w))
    else .error (illegalCause w) := by
  rw [decode_eq]
  simp only [(show w &&& 0xFFFFFFFF = 0x01000000 ↔ _ from maskN_iff w 0x01),
    (show w &&& 0xFFFFFF00 = 0x02000000 ↔ _ from maskB_iff w 0x02),
    (show w &&& 0xFFFFFFFF = 0x03000000 ↔ _ from maskN_iff w 0x03),
    (show w &&& 0xFFFFFF00 = 0x04000000 ↔ _ from maskB_iff w 0x04),
    (show w &&& 0xFF0000FF = 0x10000000 ↔ _ from maskD_iff w 0x10),
    (show w &&& 0xFF000000 = 0x11000000 ↔ _ from maskR_iff w 0x11),
    (show w &&& 0xFF0000FF = 0x20000000 ↔ _ from maskD_iff w 0x20),
    (show w &&& 0xFF0000FF = 0x21000000 ↔ _ from maskD_iff w 0x21),
    (show w &&& 0xFF000000 = 0x30000000 ↔ _ from maskR_iff w 0x30),
    (show w &&& 0xFF000000 = 0x31000000 ↔ _ from maskR_iff w 0x31)]

end Sys2Proof
end

