-- ==== Sys2Proof/Laws/State.lean ====
section
/-! SUPPORT. What each update of State leaves in each field: one lemma per field per update. -/
namespace Sys2Proof.Machine

variable (s : State) (v : Byte) (st : Status) (p : Half) (cause : Illegal) (w : Word)

@[simp] theorem State.writeC_c : (s.writeC v).c = v := rfl
@[simp] theorem State.writeC_inReset : (s.writeC v).inReset = s.inReset := rfl
@[simp] theorem State.writeC_script : (s.writeC v).script = s.script := rfl
@[simp] theorem State.writeC_received : (s.writeC v).received = s.received := rfl

@[simp] theorem State.respond_c : (s.respond st p).c = s.c := rfl
@[simp] theorem State.respond_inReset : (s.respond st p).inReset = s.inReset := rfl
@[simp] theorem State.respond_script : (s.respond st p).script = s.script := rfl
@[simp] theorem State.respond_received : (s.respond st p).received = s.received ++ [responseWord st p] := rfl

@[simp] theorem State.raise_c : (s.raise st).c = s.c := rfl
@[simp] theorem State.raise_inReset : (s.raise st).inReset = s.inReset := rfl
@[simp] theorem State.raise_script : (s.raise st).script = s.script := rfl
@[simp] theorem State.raise_received : (s.raise st).received = s.received ++ [responseWord st 0x0000] := rfl

@[simp] theorem State.answerIllegal_c : (s.answerIllegal cause).c = s.c := rfl
@[simp] theorem State.answerIllegal_inReset : (s.answerIllegal cause).inReset = s.inReset := rfl
@[simp] theorem State.answerIllegal_script : (s.answerIllegal cause).script = s.script := rfl
@[simp] theorem State.answerIllegal_received :
    (s.answerIllegal cause).received = s.received ++ [responseWord .illegal 0x0000] := rfl

@[simp] theorem State.assertReset_c : s.assertReset.c = Config.resetC := rfl
@[simp] theorem State.assertReset_inReset : s.assertReset.inReset = true := rfl
@[simp] theorem State.assertReset_script : s.assertReset.script = s.script := rfl
@[simp] theorem State.assertReset_received : s.assertReset.received = s.received := rfl

@[simp] theorem State.releaseReset_inReset : s.releaseReset.inReset = false := by
  cases h : s.inReset <;> simp [State.releaseReset, h]

@[simp] theorem State.releaseReset_script : s.releaseReset.script = s.script := by
  cases h : s.inReset <;> simp [State.releaseReset, h]

@[simp] theorem State.releaseReset_received : s.releaseReset.received = s.received := by
  cases h : s.inReset <;> simp [State.releaseReset, h]

theorem State.releaseReset_c : s.releaseReset.c = if s.inReset then Config.resetC else s.c := by
  cases h : s.inReset <;> simp [State.releaseReset, h]

@[simp] theorem State.turnAway_eq : s.turnAway w = s := rfl
@[simp] theorem State.abandon_eq : s.abandon w = s.assertReset := rfl
@[simp] theorem State.accepts_eq : s.accepts = !s.inReset := rfl

@[simp] theorem State.withFetchWord_c (nbits n : Nat) : (s.withFetchWord nbits n).c = s.c := rfl
@[simp] theorem State.withFetchWord_inReset (nbits n : Nat) : (s.withFetchWord nbits n).inReset = false := rfl
@[simp] theorem State.withFetchWord_script (nbits n : Nat) :
    (s.withFetchWord nbits n).script = .present (tableWord nbits n) :: s.script := rfl
@[simp] theorem State.withFetchWord_received (nbits n : Nat) : (s.withFetchWord nbits n).received = s.received := rfl

@[simp] theorem State.reset_c : State.reset.c = 0x00 := rfl
@[simp] theorem State.reset_inReset : State.reset.inReset = false := rfl
@[simp] theorem State.reset_script : State.reset.script = [] := rfl
@[simp] theorem State.reset_received : State.reset.received = [] := rfl

end Sys2Proof.Machine
end

