-- ==== Sys2Proof/Laws/Ops.lean ====
section
/-! SUPPORT. What each shared operation can do, said once: taking the host's next event, the response word and its
fields, the division and the payload of a value, and the three outcomes of a reply. -/
namespace Sys2Proof.Machine

/-- The host has no event left exactly when its script is empty. -/
theorem State.takeEvent_eq_none (s : State) : s.takeEvent = none ↔ s.script = [] := by
  unfold State.takeEvent
  split <;> simp_all

/-- Taking an event removes it from the script and changes nothing else. -/
theorem State.takeEvent_eq_some (s s' : State) (e : HostEvent) :
    s.takeEvent = some (e, s') ↔ ∃ rest, s.script = e :: rest ∧ s' = { s with script := rest } := by
  unfold State.takeEvent
  split
  · simp_all
  · next e' rest h =>
    constructor
    · intro hs
      obtain ⟨rfl, rfl⟩ : e' = e ∧ { s with script := rest } = s' := by simpa using hs
      exact ⟨rest, h, rfl⟩
    · rintro ⟨rest', h', rfl⟩
      rw [h] at h'
      obtain ⟨rfl, rfl⟩ : e' = e ∧ rest = rest' := by simpa using h'
      rfl

/-- A response word as a number (R24). -/
theorem responseWord_toNat (st : Status) (p : Half) :
    (responseWord st p).toNat = st.code.toNat * 268435456 + p.toNat := by
  have hp := p.isLt
  have hst := st.code.isLt
  have hs : st.code.toNat <<< 28 = st.code.toNat * 268435456 := Nat.shiftLeft_eq _ _
  rw [responseWord, BitVec.toNat_or, BitVec.toNat_shiftLeft, BitVec.toNat_setWidth, BitVec.toNat_setWidth,
    Nat.mod_eq_of_lt (by omega : st.code.toNat < 2 ^ 32), Nat.mod_eq_of_lt (by omega : p.toNat < 2 ^ 32),
    Nat.mod_eq_of_lt (by omega : st.code.toNat <<< 28 < 2 ^ 32), ← Nat.shiftLeft_add_eq_or_of_lt (by omega)]
  omega

@[simp] theorem statusField_responseWord (st : Status) (p : Half) : statusField (responseWord st p) = st.code := by
  have := p.isLt; have := st.code.isLt
  apply BitVec.eq_of_toNat_eq
  rw [statusField, BitVec.extractLsb'_toNat, responseWord_toNat, Nat.shiftRight_eq_div_pow]
  omega

@[simp] theorem zeroField_responseWord (st : Status) (p : Half) : zeroField (responseWord st p) = 0#12 := by
  have := p.isLt; have := st.code.isLt
  apply BitVec.eq_of_toNat_eq
  rw [zeroField, BitVec.extractLsb'_toNat, responseWord_toNat, Nat.shiftRight_eq_div_pow, BitVec.toNat_ofNat]
  omega

@[simp] theorem payloadField_responseWord (st : Status) (p : Half) : payloadField (responseWord st p) = p := by
  have := p.isLt
  apply BitVec.eq_of_toNat_eq
  rw [payloadField, BitVec.extractLsb'_toNat, responseWord_toNat, Nat.shiftRight_eq_div_pow]
  omega

/-- For a positive divisor the division of R4 is the library's truncating division. -/
theorem tdiv_eq_tdiv (a b : Int) : tdiv a b = a.tdiv b := by
  unfold tdiv
  split
  · next h => rw [Int.tdiv_eq_ediv_of_nonneg h]
  · next h => rw [← Int.tdiv_eq_ediv_of_nonneg (by omega), Int.neg_tdiv, neg_neg]

/-- The 16-bit pattern of an integer in range reads back as that integer (R4, R49). -/
theorem int16_tc16 (v : Int) (lo : -32768 ≤ v) (hi : v ≤ 32767) : int16 (tc16 v) = v := by
  rw [int16, tc16, BitVec.toInt_ofInt, Int.bmod_def]
  norm_num
  split <;> omega

/-- The masked raw reading as a number: its two low bits cleared (R43). -/
theorem maskRaw_toNat (raw : Half) : (maskRaw raw).toNat = 4 * (raw.toNat / 4) := by
  have bits : ∀ k : Fin 16, Config.statusMask.getLsbD k = decide (2 ≤ k.val) := by decide
  have h : maskRaw raw = (raw >>> 2) <<< 2 := by
    apply BitVec.eq_of_getLsbD_eq
    intro k hk
    rw [maskRaw, BitVec.getLsbD_and, bits ⟨k, hk⟩, BitVec.getLsbD_shiftLeft, BitVec.getLsbD_ushiftRight]
    by_cases h2 : k < 2
    · simp [h2, show ¬ 2 ≤ k by omega]
    · simp [h2, hk, show 2 ≤ k by omega, show 2 + (k - 2) = k by omega]
  have := raw.isLt
  rw [h, BitVec.toNat_shiftLeft, BitVec.toNat_ushiftRight, Nat.shiftLeft_eq, Nat.shiftRight_eq_div_pow]
  omega

/-- The raw reading of two bytes as a number (R16). -/
theorem rawOf_toNat (b0 b1 : Byte) : (rawOf b0 b1).toNat = b0.toNat * 256 + b1.toNat := toNat_append_byte b0 b1

/-- The status tag as a number (R44). -/
theorem tagOf_toNat (raw : Half) : (tagOf raw).toNat = raw.toNat % 4 := by
  rw [tagOf, BitVec.extractLsb'_toNat, Nat.shiftRight_eq_div_pow]
  omega

/-- The three outcomes of a reply and when each is the one (R53, R61). -/
theorem checkReply_cases (k : Kind) (b0 b1 chk : Byte) :
    (verify b0 b1 chk = false ∧ checkReply k b0 b1 chk = .checksumMismatch) ∨
    (verify b0 b1 chk = true ∧ tagMatches k (rawOf b0 b1) = false ∧
      checkReply k b0 b1 chk = .unexpectedMeasurementKind) ∨
    (verify b0 b1 chk = true ∧ tagMatches k (rawOf b0 b1) = true ∧
      checkReply k b0 b1 chk = .ok (conv k (maskRaw (rawOf b0 b1)))) := by
  unfold checkReply
  cases verify b0 b1 chk <;> cases tagMatches k (rawOf b0 b1) <;> simp

end Sys2Proof.Machine
end

