-- ==== Sys2Proof/Laws/PerInstr.lean ====
section
/-! SUPPORT. Facts about a command as syntax, one lemma per constructor: it is well-formed (its operands have their
widths by type, spec/30_encoding.md R29), and its encoding matches its own row of the opcode map (R26). -/
namespace Sys2Proof

/-- The command is well-formed. -/
def Laws.WellFormed.Statement (i : Instr) : Prop := i.wellFormed = true

theorem Laws.WellFormed.crcInit : Laws.WellFormed.Statement .crcInit := rfl
theorem Laws.WellFormed.crcGet : Laws.WellFormed.Statement .crcGet := rfl

theorem Laws.WellFormed.crcByte (b : Byte) : Laws.WellFormed.Statement (.crcByte b) := by
  simp [Laws.WellFormed.Statement, Instr.wellFormed, AsmLine.wellFormed, AsmLine.countOk, AsmLine.rangeOk,
    Instr.written, Mnemonic.operandBounds, b.isLt]

theorem Laws.WellFormed.crcCmp (e : Byte) : Laws.WellFormed.Statement (.crcCmp e) := by
  simp [Laws.WellFormed.Statement, Instr.wellFormed, AsmLine.wellFormed, AsmLine.countOk, AsmLine.rangeOk,
    Instr.written, Mnemonic.operandBounds, e.isLt]

theorem Laws.WellFormed.crc8 (b0 b1 : Byte) : Laws.WellFormed.Statement (.crc8 b0 b1) := by
  simp [Laws.WellFormed.Statement, Instr.wellFormed, AsmLine.wellFormed, AsmLine.countOk, AsmLine.rangeOk,
    Instr.written, Mnemonic.operandBounds, b0.isLt, b1.isLt]

theorem Laws.WellFormed.verify (b0 b1 e : Byte) : Laws.WellFormed.Statement (.verify b0 b1 e) := by
  simp [Laws.WellFormed.Statement, Instr.wellFormed, AsmLine.wellFormed, AsmLine.countOk, AsmLine.rangeOk,
    Instr.written, Mnemonic.operandBounds, b0.isLt, b1.isLt, e.isLt]

theorem Laws.WellFormed.cvtT (raw : Half) : Laws.WellFormed.Statement (.cvtT raw) := by
  simp [Laws.WellFormed.Statement, Instr.wellFormed, AsmLine.wellFormed, AsmLine.countOk, AsmLine.rangeOk,
    Instr.written, Mnemonic.operandBounds, raw.isLt]

theorem Laws.WellFormed.cvtH (raw : Half) : Laws.WellFormed.Statement (.cvtH raw) := by
  simp [Laws.WellFormed.Statement, Instr.wellFormed, AsmLine.wellFormed, AsmLine.countOk, AsmLine.rangeOk,
    Instr.written, Mnemonic.operandBounds, raw.isLt]

theorem Laws.WellFormed.rplyT (b0 b1 chk : Byte) : Laws.WellFormed.Statement (.rplyT b0 b1 chk) := by
  simp [Laws.WellFormed.Statement, Instr.wellFormed, AsmLine.wellFormed, AsmLine.countOk, AsmLine.rangeOk,
    Instr.written, Mnemonic.operandBounds, b0.isLt, b1.isLt, chk.isLt]

theorem Laws.WellFormed.rplyH (b0 b1 chk : Byte) : Laws.WellFormed.Statement (.rplyH b0 b1 chk) := by
  simp [Laws.WellFormed.Statement, Instr.wellFormed, AsmLine.wellFormed, AsmLine.countOk, AsmLine.rangeOk,
    Instr.written, Mnemonic.operandBounds, b0.isLt, b1.isLt, chk.isLt]

/-- The command's encoding matches the opcode map's row of its own mnemonic. -/
def Laws.EncodingRow.Statement (i : Instr) : Prop :=
  ∃ row ∈ opcodeTable, row.mnemonic = i.mnemonic ∧ rowMatches (encode i) row = true

theorem Laws.EncodingRow.crcInit : Laws.EncodingRow.Statement .crcInit :=
  ⟨⟨.crcInit, .n, 0x01000000⟩, by decide, rfl, rfl⟩

theorem Laws.EncodingRow.crcGet : Laws.EncodingRow.Statement .crcGet :=
  ⟨⟨.crcGet, .n, 0x03000000⟩, by decide, rfl, rfl⟩

theorem Laws.EncodingRow.crcByte (b : Byte) : Laws.EncodingRow.Statement (.crcByte b) :=
  ⟨⟨.crcByte, .b, 0x02000000⟩, by decide, rfl,
    beq_iff_eq.mpr ((maskB_iff _ 0x02).mpr ⟨opField_wordOf .., d0Field_wordOf .., d1Field_wordOf ..⟩)⟩

theorem Laws.EncodingRow.crcCmp (e : Byte) : Laws.EncodingRow.Statement (.crcCmp e) :=
  ⟨⟨.crcCmp, .b, 0x04000000⟩, by decide, rfl,
    beq_iff_eq.mpr ((maskB_iff _ 0x04).mpr ⟨opField_wordOf .., d0Field_wordOf .., d1Field_wordOf ..⟩)⟩

theorem Laws.EncodingRow.crc8 (b0 b1 : Byte) : Laws.EncodingRow.Statement (.crc8 b0 b1) :=
  ⟨⟨.crc8, .d, 0x10000000⟩, by decide, rfl,
    beq_iff_eq.mpr ((maskD_iff _ 0x10).mpr ⟨opField_wordOf .., xField_wordOf ..⟩)⟩

theorem Laws.EncodingRow.verify (b0 b1 e : Byte) : Laws.EncodingRow.Statement (.verify b0 b1 e) :=
  ⟨⟨.verify, .r, 0x11000000⟩, by decide, rfl, beq_iff_eq.mpr ((maskR_iff _ 0x11).mpr (opField_wordOf ..))⟩

theorem Laws.EncodingRow.cvtT (raw : Half) : Laws.EncodingRow.Statement (.cvtT raw) :=
  ⟨⟨.cvtT, .d, 0x20000000⟩, by decide, rfl,
    beq_iff_eq.mpr ((maskD_iff _ 0x20).mpr ⟨opField_wordOf .., xField_wordOf ..⟩)⟩

theorem Laws.EncodingRow.cvtH (raw : Half) : Laws.EncodingRow.Statement (.cvtH raw) :=
  ⟨⟨.cvtH, .d, 0x21000000⟩, by decide, rfl,
    beq_iff_eq.mpr ((maskD_iff _ 0x21).mpr ⟨opField_wordOf .., xField_wordOf ..⟩)⟩

theorem Laws.EncodingRow.rplyT (b0 b1 chk : Byte) : Laws.EncodingRow.Statement (.rplyT b0 b1 chk) :=
  ⟨⟨.rplyT, .r, 0x30000000⟩, by decide, rfl, beq_iff_eq.mpr ((maskR_iff _ 0x30).mpr (opField_wordOf ..))⟩

theorem Laws.EncodingRow.rplyH (b0 b1 chk : Byte) : Laws.EncodingRow.Statement (.rplyH b0 b1 chk) :=
  ⟨⟨.rplyH, .r, 0x31000000⟩, by decide, rfl, beq_iff_eq.mpr ((maskR_iff _ 0x31).mpr (opField_wordOf ..))⟩

end Sys2Proof
end

