-- ==== Sys2Proof/Tests/Slice0.lean ====
section
/-! SUPPORT. Tests: expected results are those of spec/95_test_vectors.md and of the rules' own examples, and each
statement of Certificates/Slice0/Obligations.lean that has hypotheses has a witness that meets them. -/
namespace Sys2Proof.Tests

open Sys2Proof Sys2Proof.Machine

/-- A block out of reset whose register holds `c` and whose host will do what `script` says. -/
def ready (c : Byte) (script : List HostEvent) : State := ⟨c, false, script, []⟩

/-- The register and the response after one step on a presented word. -/
def answer (c : Byte) (w : Word) : Option (Byte × List Word) :=
  match step (ready c [.present w]) with
  | .next t => some (t.c, t.received)
  | .fault _ => none
  | .refused _ => none

/-- The state after `k` steps. -/
def after (k : Nat) (s : State) : Option State :=
  match runSteps k s with
  | .next t => some t
  | .fault _ => none
  | .refused _ => none

/-! ### Well-formed written lines (R29): each check refuses an ill-formed line -/

theorem test_wellFormed_refuses_missing_operand : AsmLine.wellFormed ⟨.crc8, [1]⟩ = false := by decide
theorem test_wellFormed_refuses_extra_operand : AsmLine.wellFormed ⟨.crcGet, [0]⟩ = false := by decide
theorem test_wellFormed_refuses_byte_256 : AsmLine.wellFormed ⟨.crcByte, [256]⟩ = false := by decide
theorem test_wellFormed_refuses_raw_65536 : AsmLine.wellFormed ⟨.cvtT, [65536]⟩ = false := by decide
theorem test_wellFormed_accepts_bounds : AsmLine.wellFormed ⟨.rplyH, [255, 255, 255]⟩ = true := by decide

theorem test_assemble_range_error : assemble ⟨.verify, [1, 256, 0]⟩ = .error .operandRange := by decide
theorem test_assemble_count_error : assemble ⟨.verify, [1, 2]⟩ = .error .operandCount := by decide

/-- R29: case is not significant, numbers in decimal or hexadecimal, a comment after `;` (section 6, P2 line 4). -/
theorem test_assembleText_line :
    assembleText "cvt.t 0X6670 ; same value as 3, no checks".toList = .ok (some (.cvtT 0x6670)) := by decide
theorem test_assembleText_decimal : assembleText "CRC8 102,112".toList = .ok (some (.crc8 0x66 0x70)) := by decide
theorem test_assembleText_no_command : assembleText "  ; only a comment".toList = .ok none := by decide
theorem test_assembleText_bad_number : assembleText "CRC.BYTE 0x".toList = .error .badNumber := by decide

/-! ### Decoding: one word of each row, written out bit by bit from the encoding strings of R26 -/

theorem test_decode_crcInit : decode 0b00000001000000000000000000000000 = .ok .crcInit := by decide
theorem test_decode_crcByte : decode 0b00000010000000000000000011101111 = .ok (.crcByte 0xEF) := by decide
theorem test_decode_crcGet : decode 0b00000011000000000000000000000000 = .ok .crcGet := by decide
theorem test_decode_crcCmp : decode 0b00000100000000000000000011110101 = .ok (.crcCmp 0xF5) := by decide
theorem test_decode_crc8 : decode 0b00010000000100100011010000000000 = .ok (.crc8 0x12 0x34) := by decide
theorem test_decode_verify : decode 0b00010001000000010000000011110100 = .ok (.verify 0x01 0x00 0xF4) := by decide
theorem test_decode_cvtT : decode 0b00100000011001100111000000000000 = .ok (.cvtT 0x6670) := by decide
theorem test_decode_cvtH : decode 0b00100001011111001000001000000000 = .ok (.cvtH 0x7C82) := by decide
theorem test_decode_rplyT : decode 0b00110000010001000011110010110010 = .ok (.rplyT 0x44 0x3C 0xB2) := by decide
theorem test_decode_rplyH : decode 0b00110001000011000100101001010010 = .ok (.rplyH 0x0C 0x4A 0x52) := by decide

/-- Section 5: illegal words, by cause. -/
theorem test_decode_unlisted :
    [0x00000000, 0xFFFFFFFF, 0x05000000, 0x12000000, 0x22400000, 0x32400089].map decode =
      [.error (.unlistedOpcode 0x00), .error (.unlistedOpcode 0xFF), .error (.unlistedOpcode 0x05),
       .error (.unlistedOpcode 0x12), .error (.unlistedOpcode 0x22), .error (.unlistedOpcode 0x32)] := by decide
theorem test_decode_must_be_zero :
    [0x01000001, 0x02000100, 0x03800000, 0x040100F4, 0x10010001, 0x20400001, 0x21800080].map decode =
      [.error (.nonzeroMustBeZero 0x01), .error (.nonzeroMustBeZero 0x02), .error (.nonzeroMustBeZero 0x03),
       .error (.nonzeroMustBeZero 0x04), .error (.nonzeroMustBeZero 0x10), .error (.nonzeroMustBeZero 0x20),
       .error (.nonzeroMustBeZero 0x21)] := by decide

theorem test_encode_words :
    [encode (.crcByte 0xF4), encode (.crc8 0x66 0x70), encode (.verify 0x66 0x70 0xF7), encode (.cvtH 0x8084),
     encode (.rplyT 0x40 0x00 0x89)] = [0x020000F4, 0x10667000, 0x116670F7, 0x21808400, 0x30400089] := by decide

/-- No two rows of the opcode map can match one word (R26): two rows differ in a bit that both fix. -/
theorem test_rows_disjoint :
    opcodeTable.Pairwise fun r r' =>
      r.pattern &&& r.format.mask &&& r'.format.mask ≠ r'.pattern &&& r.format.mask &&& r'.format.mask := by decide

/-! ### The functions -/

/-- Section 2.2. -/
theorem test_crcBit :
    [0x00, 0x01, 0x40, 0x7F, 0x80, 0x81, 0xC0, 0xFF, 0x98, 0x18].map crcBit =
      [0x00, 0x02, 0x80, 0xFE, 0x31, 0x33, 0xB1, 0xCF, 0x01, 0x30] := by decide

/-- Section 2.1, the pairs. -/
theorem test_crc8_pairs :
    [crc8 0x00 0x01, crc8 0x80 0x00, crc8 0x00 0x80, crc8 0xFF 0xFF, crc8 0x12 0x34, crc8 0xBE 0xEF, crc8 0x4E 0x85,
     crc8 0x68 0x3A] = [0x31, 0x23, 0x7A, 0x2D, 0xB6, 0x13, 0x6B, 0x7C] := by decide +kernel

/-- Section 2.3: the table `crc_byte(0x00, b)`, its rows 0x, 3x, 8x and Fx. -/
theorem test_crcByte_table :
    (List.range 16).map (fun b => (crcByte 0x00 (BitVec.ofNat 8 b)).toNat) =
      [0x00, 0x31, 0x62, 0x53, 0xC4, 0xF5, 0xA6, 0x97, 0xB9, 0x88, 0xDB, 0xEA, 0x7D, 0x4C, 0x1F, 0x2E] ∧
    (List.range 16).map (fun b => (crcByte 0x00 (BitVec.ofNat 8 (0x30 + b))).toNat) =
      [0xC5, 0xF4, 0xA7, 0x96, 0x01, 0x30, 0x63, 0x52, 0x7C, 0x4D, 0x1E, 0x2F, 0xB8, 0x89, 0xDA, 0xEB] ∧
    (List.range 16).map (fun b => (crcByte 0x00 (BitVec.ofNat 8 (0x80 + b))).toNat) =
      [0x7A, 0x4B, 0x18, 0x29, 0xBE, 0x8F, 0xDC, 0xED, 0xC3, 0xF2, 0xA1, 0x90, 0x07, 0x36, 0x65, 0x54] ∧
    (List.range 16).map (fun b => (crcByte 0x00 (BitVec.ofNat 8 (0xF0 + b))).toNat) =
      [0x82, 0xB3, 0xE0, 0xD1, 0x46, 0x77, 0x24, 0x15, 0x3B, 0x0A, 0x59, 0x68, 0xFF, 0xCE, 0x9D, 0xAC] := by
  decide +kernel

/-- Section 3.1. -/
theorem test_convT :
    [0x0000, 0x0004, 0x4000, 0x4438, 0x443C, 0x4440, 0x4444, 0x6670, 0x8000, 0xC000, 0xFFFC].map convT =
      [-4684, -4683, -291, -1, 0, 0, 1, 2346, 4101, 8494, 12886] := by decide +kernel

/-- Section 3.2. -/
theorem test_convH :
    [0x0000, 0x0AC0, 0x0AC4, 0x0BC4, 0x0BC8, 0x0CCC, 0x0CD0, 0x7C80, 0x8000, 0x8080, 0x8084, 0xFFFC].map convH =
      [-11, -1, 0, 0, 0, 0, 1, 110, 113, 113, 114, 238] := by decide +kernel

/-- Section 3.3. -/
theorem test_mask_tag :
    [0x4000, 0x4001, 0x4002, 0x4003, 0xFFFF].map maskRaw = [0x4000, 0x4000, 0x4000, 0x4000, 0xFFFC] ∧
    [0x4000, 0x4001, 0x4002, 0x4003, 0xFFFF].map (tagMatches .humidity) = [false, false, true, false, false] := by
  decide

/-! ### The commands, one step each -/

/-- Section 2.5. -/
theorem test_crcInit : answer 0x5A 0x01000000 = some (0x00, [0x00000000]) := by decide
theorem test_crcByte : answer 0x31 0x02000000 = some (0xF4, [0x000000F4]) := by decide
theorem test_crcByte_same : answer 0xF4 0x020000F4 = some (0x00, [0x00000000]) := by decide
theorem test_crcGet : answer 0xF4 0x03000000 = some (0xF4, [0x000000F4]) := by decide
theorem test_crcCmp_true : answer 0xF4 0x040000F4 = some (0xF4, [0x00000001]) := by decide
theorem test_crcCmp_false : answer 0xF4 0x040000F5 = some (0xF4, [0x00000000]) := by decide
theorem test_crc8 : answer 0xA7 0x10010000 = some (0xF4, [0x000000F4]) := by decide +kernel
theorem test_verify_true : answer 0xF7 0x116670F7 = some (0xF7, [0x00000001]) := by decide +kernel
theorem test_verify_false : answer 0x00 0x110100F5 = some (0xF4, [0x00000000]) := by decide +kernel

/-- Section 3.4: the tag is not examined and `C` is untouched. -/
theorem test_cvtT : answer 0xA5 0x20400300 = some (0xA5, [0x0000FEDD]) := by decide +kernel
theorem test_cvtT_humidity_tag : answer 0xA5 0x20800200 = some (0xA5, [0x00001005]) := by decide +kernel
theorem test_cvtH : answer 0xA5 0x21800300 = some (0xA5, [0x00000071]) := by decide +kernel
theorem test_cvtH_low_bits : answer 0xA5 0x21808400 = some (0xA5, [0x00000072]) := by decide +kernel

/-- Section 4. -/
theorem test_rplyT : answer 0x00 0x30400089 = some (0x89, [0x0000FEDD]) := by decide +kernel
theorem test_rplyT_both_wrong : answer 0x89 0x30800240 = some (0x41, [0x10000000]) := by decide +kernel
theorem test_rplyH_minimum : answer 0x00 0x31000262 = some (0x62, [0x0000FFF5]) := by decide +kernel
theorem test_rplyH_wrong_tag : answer 0x89 0x31800112 = some (0x12, [0x20000000]) := by decide +kernel

/-- Sections 5 and 6 (P5). -/
theorem test_illegal : answer 0xF4 0x10010001 = some (0xF4, [0xF0000000]) := by decide

/-- Section 6 (P6), and a command abandoned by reset (R68). -/
theorem test_reset_then_byte :
    after 3 (ready 0xF4 [.presentThenReset 0x01000000, .releaseReset, .present 0x02000001]) =
      some ⟨0x31, false, [], [0x00000031]⟩ := by decide

theorem test_fetch_first_word : after 1 (State.reset.withFetchWord 32 0x02000001) = some ⟨0x31, false, [], [0x31]⟩ := by
  decide

/-! ### Witnesses: what meets the hypotheses of each statement that has some -/

/-- The bounds of R29 and one beyond each. -/
theorem witness_WrittenLineAssembles :
    assemble ⟨.crcByte, [255]⟩ = .ok (.crcByte 0xFF) ∧ assemble ⟨.cvtT, [65535]⟩ = .ok (.cvtT 0xFFFF) ∧
    AsmLine.wellFormed ⟨.crcByte, [255]⟩ = true ∧ AsmLine.wellFormed ⟨.crcByte, [256]⟩ = false ∧
    AsmLine.wellFormed ⟨.cvtT, [65536]⟩ = false := by decide

/-- The masked readings of R48 (c) at the bounds of the two signs. -/
theorem witness_ConversionRangesAndZeros :
    ((maskRaw 0x443C).toNat = 17468 ∧ (maskRaw 0x4440).toNat = 17472) ∧
    ((maskRaw 0x0BC4).toNat = 3012 ∧ (maskRaw 0x0BC8).toNat = 3016) := by decide

theorem witness_EncodeOfDecode : decode 0x31FFFFFF = .ok (.rplyH 0xFF 0xFF 0xFF) := by decide

theorem witness_IllegalCausesNamed :
    decode 0x00FFFFFF = .error (.unlistedOpcode 0x00) ∧ decode 0x32000000 = .error (.unlistedOpcode 0x32) ∧
    decode 0x03000001 = .error (.nonzeroMustBeZero 0x03) ∧ decode 0x04000100 = .error (.nonzeroMustBeZero 0x04) ∧
    decode 0x21000080 = .error (.nonzeroMustBeZero 0x21) := by decide

theorem witness_ResidueProgramVerifies :
    (ready 0x5A (commandScript [encode .crcInit, encode (.crcByte 1), encode (.crcByte 0), encode (.crcByte 0xF4),
      encode (.crcCmp 0x00)])).inReset = false ∧ (0xF4 : Byte) = crc8 1 0 := by decide +kernel

theorem witness_SingleBitErrorsDetected : 7 < 8 ∧ verify (0x01 ^^^ (1#8 <<< 7)) 0x00 (crc8 0x01 0x00) = false := by decide +kernel

theorem witness_DoubleAndBurstErrorsDetected :
    (0 < 24 ∧ 23 < 24 ∧ 0 ≠ 23 ∧ replyVerifies (goodReply 0x01 0x00 ^^^ (1#24 <<< 0) ^^^ (1#24 <<< 23)) = false) ∧
    (0xFF#8 ≠ 0#8 ∧ 16 ≤ 16 ∧ replyVerifies (goodReply 0x01 0x00 ^^^ ((0xFF#8).zeroExtend 24 <<< 16)) = false) := by
  decide +kernel

theorem witness_MaskAndTag : tagOf 0x4001 = 0b01#2 ∧ tagOf 0xFFFF = 0b11#2 := by decide

theorem witness_ConversionFormulas :
    (0 < (2 : Int) ∧ 0 ≤ (3 : Int) ∧ tdiv 3 2 = 1) ∧ ((-4 : Int) < 0 ∧ (2 : Int) ∣ -4 ∧ tdiv (-4) 2 = -2) ∧
    ((-3 : Int) < 0 ∧ ¬ (2 : Int) ∣ -3 ∧ tdiv (-3) 2 = -1) := by decide

theorem witness_ConversionMonotone : (0x443B : Half).toNat ≤ (0x443C : Half).toNat := by decide

theorem witness_ConversionAgainstLinearLaws :
    (-4685 / 100 + 17572 / 100 * ((maskRaw 0x4000).toNat : ℚ) / 65536 = -292 / 100) ∧
    (-6 + 125 * ((maskRaw 0x8000).toNat : ℚ) / 65536 = 565 / 10) := by
  rw [show (maskRaw 0x4000).toNat = 16384 by decide, show (maskRaw 0x8000).toNat = 32768 by decide]
  norm_num

/-- The masked raw reading at which a sentence of R48 (c) fails (notes/assumptions/12.md). -/
theorem witness_NegativeNumeratorNeverMultiple :
    4393 * ((maskRaw 0x2000).toNat : Int) - 76750848 < 0 ∧
    4393 * ((maskRaw 0x2000).toNat : Int) - 76750848 = -2488 * 16384 ∧ convT 0x2000 = -2488 := by decide +kernel

theorem witness_mustBeZero_X : (0x01#8 : Byte) ≠ 0#8 ∧ (0xFF#8 : Byte) ≠ 0#8 := by decide

/-- The two readings of section 3.2 that differ only in bits 3:2, and whose results differ. -/
theorem witness_CvtHConverts : (0x8080 : Half).toNat / 16 = (0x8084 : Half).toNat / 16 := by decide

theorem witness_CheckReplyOrder :
    verify 0x40 0x00 0x88 = false ∧ (verify 0x80 0x02 0x41 = true ∧ tagOf (0x80#8 ++ 0x02#8) ≠ expectedTag .temperature) ∧
    (verify 0x80 0x02 0x41 = true ∧ tagOf (0x80#8 ++ 0x02#8) = expectedTag .humidity) := by decide +kernel

theorem witness_RplyTAcceptsGoodReply :
    (crc8 0x00 0x00 = 0x00 ∧ (0x00 : Byte).toNat % 4 = 0) ∧ (crc8 0xFF 0xFC = 0x7E ∧ (0xFC : Byte).toNat % 4 = 0) := by
  decide +kernel

theorem witness_RplyHAcceptsGoodReply :
    (crc8 0x00 0x02 = 0x62 ∧ (0x02 : Byte).toNat % 4 = 2) ∧ (crc8 0xFF 0xFE = 0x1C ∧ (0xFE : Byte).toNat % 4 = 2) := by
  decide +kernel

theorem witness_ChecksumMismatchReported : crc8 0x40 0x00 ≠ 0x88 ∧ crc8 0x80 0x02 ≠ 0x40 := by decide +kernel

theorem witness_UnexpectedKindReported :
    (crc8 0x80 0x02 = 0x41 ∧ tagOf (0x80#8 ++ 0x02#8) ≠ 0b00#2) ∧
    (crc8 0x40 0x00 = 0x89 ∧ tagOf (0x40#8 ++ 0x00#8) ≠ 0b10#2) ∧
    (crc8 0x80 0x03 = 0x70 ∧ tagOf (0x80#8 ++ 0x03#8) ≠ 0b00#2 ∧ tagOf (0x80#8 ++ 0x03#8) ≠ 0b10#2) := by decide +kernel

/-- Also for `StepRefinesTransaction` and, with one word, for `RunIsFoldOfTransactions` and `OneResponsePerCommand`. -/
theorem witness_StepRunsDecodedCommand :
    (ready 0x31 [.present 0x02000000, .assertReset]).inReset = false ∧
    (ready 0x31 [.present 0x02000000, .assertReset]).script = .present 0x02000000 :: [.assertReset] ∧
    decode 0x02000000 = .ok (.crcByte 0x00) ∧ (Instr.crcByte 0x00).wellFormed = true := by decide

theorem witness_IllegalWordAnswered :
    (ready 0xF4 [.present 0x20400001]).inReset = false ∧
    (ready 0xF4 [.present 0x20400001]).script = .present 0x20400001 :: [] ∧
    ∀ row ∈ opcodeTable, (0x20400001 : Word) &&& row.format.mask ≠ row.pattern := by decide

theorem witness_BlockWaitsForHost : State.reset.script = [] := by decide

theorem witness_ResetClearsRegister :
    (ready 0x5A [.assertReset]).script = .assertReset :: [] ∧
    (⟨0x5A, true, [.releaseReset], [0x31]⟩ : State).inReset = true ∧
    (⟨0x5A, true, [.releaseReset], [0x31]⟩ : State).script = .releaseReset :: [] := by decide

theorem witness_NothingAnsweredInReset :
    (⟨0x5A, true, [.present 0x03000000, .releaseReset], []⟩ : State).inReset = true ∧
    (⟨0x5A, true, [.present 0x03000000, .releaseReset], []⟩ : State).script =
      commandScript [0x03000000] ++ .releaseReset :: [] := by decide

theorem witness_CommandAbandonedByReset :
    (ready 0xF4 [.presentThenReset 0x03000000, .releaseReset]).script =
      .presentThenReset 0x03000000 :: .releaseReset :: [] ∧
    (ready 0xF4 [.assertReset, .releaseReset]).script = .assertReset :: .releaseReset :: [] := by decide

/-- A present word, no word at all, and a word in reset: a next state each. -/
theorem witness_OneResponsePerCommand :
    after 1 (ready 0xF4 [.present 0x03000000]) = some ⟨0xF4, false, [], [0x000000F4]⟩ ∧
    after 1 (ready 0xF4 [.assertReset]) = some ⟨0x00, true, [], []⟩ ∧
    after 1 ⟨0x00, true, [.present 0x03000000], []⟩ = some ⟨0x00, true, [], []⟩ := by decide

theorem witness_ResponsesStayLegal :
    (⟨0xF4, false, [.present 0x00000000], [0x0000FEDD, 0x10000000]⟩ : State).answersLegal = true ∧
    after 1 ⟨0xF4, false, [.present 0x00000000], [0x0000FEDD, 0x10000000]⟩ =
      some ⟨0xF4, false, [], [0x0000FEDD, 0x10000000, 0xF0000000]⟩ := by decide

theorem test_legalResponse_refuses :
    legalResponse 0x30000000 = false ∧ legalResponse 0x00010000 = false ∧ legalResponse 0x10000001 = false := by decide

theorem witness_RunIsFoldOfTransactions :
    (ready 0x00 [.present 0x01000000, .present 0x03000000, .assertReset]).inReset = false ∧
    (ready 0x00 [.present 0x01000000, .present 0x03000000, .assertReset]).script =
      commandScript [0x01000000, 0x03000000] ++ [.assertReset] := by decide

/-- A writing command and a reset, each of which changes `C`. -/
theorem witness_OnlyListedWritersWriteC :
    after 1 (ready 0x31 [.present 0x02000000]) = some ⟨0xF4, false, [], [0x000000F4]⟩ ∧
    after 1 (ready 0x31 [.assertReset]) = some ⟨0x00, true, [], []⟩ := by decide

/-- For `OnlyListedReadersReadC` a writer and a command that leaves `C` alone, and for `RepeatingIsIdempotent`. -/
theorem witness_OnlyListedReadersReadC :
    (Instr.crcInit.mnemonic ≠ .crcByte ∧ Instr.crcInit.mnemonic ≠ .crcGet ∧ Instr.crcInit.mnemonic ≠ .crcCmp) ∧
    ((Instr.cvtT 0).mnemonic ≠ .crcByte ∧ (Instr.cvtT 0).mnemonic ≠ .crcGet ∧ (Instr.cvtT 0).mnemonic ≠ .crcCmp) := by
  decide

theorem witness_RepeatingIsIdempotent : (Instr.rplyT 0 0 1).mnemonic ≠ .crcByte := by decide

theorem witness_EveryRegisterValueReached :
    (ready 0x5A (commandScript [encode .crcInit, encode (.crcByte 0x01)])).inReset = false ∧
    after 2 (ready 0x5A (commandScript [encode .crcInit, encode (.crcByte 0x01)])) =
      some ⟨0x31, false, [], [0x00000000, 0x00000031]⟩ := by decide

theorem witness_CompositesEqualStreams : (ready 0x5A []).inReset = false := by decide

/-- P4, commands 7 to 9: CVT.T between two CRC.BYTE commands. -/
theorem witness_StreamSurvivesHarmlessCommands :
    (ready 0x00 (commandScript [0x020000BE, 0x20400000, 0x020000EF])).script =
      commandScript [0x020000BE, 0x20400000, 0x020000EF] ++ [] ∧
    ([0x020000BE, 0x20400000, 0x020000EF].all fun w => !writesC w || w.extractLsb' 24 8 == 0x02#8) = true ∧
    writesC 0x020000BE = true ∧ writesC 0x20400000 = false := by decide

theorem witness_StreamingAfterReset :
    (ready 0x5A (.assertReset :: .releaseReset ::
      commandScript [encode (.crcByte 1), encode (.crcByte 0), encode .crcGet])).script =
    .assertReset :: .releaseReset :: commandScript [encode (.crcByte 1), encode (.crcByte 0), encode .crcGet] := by decide

end Sys2Proof.Tests
end

section
/-! SUPPORT. The decoder and the encoder undo each other (spec/30_encoding.md R26): read off the decoder's test of the
word's fields. -/
namespace Sys2Proof

/-- Every operand of every command is kept by its encoding. -/
@[simp] theorem decode_encode (i : Instr) : decode (encode i) = .ok i := by
  rw [decode_eq_fields]
  cases i with
  | cvtT raw | cvtH raw => simp [encode, rawField_eq_append, half_eq_append]
  | _ => simp [encode]

/-- No bit of a legal word is dropped: the fields its format requires to be zero are zero in its encoding too. -/
theorem encode_of_decode {w : Word} {i : Instr} (h : decode w = .ok i) : encode i = w := by
  rw [decode_eq_fields] at h
  split_ifs at h
  all_goals
    obtain rfl := Except.ok.inj h
    conv_rhs => rw [← wordOf_fields w]
    simp [encode, *]

end Sys2Proof
end

section
/-! SUPPORT. What an execution does, said once for all commands and words: it moves the register by a function of the
command and the old register, and answers one word that is a function of the same two (spec/10_state.md R7). -/
namespace Sys2Proof.Machine

/-- The response word to the result of `check_reply` (R54, R55). -/
def replyResponse : ReplyResult → Word
  | .ok v => responseWord .ok (tc16 v)
  | .checksumMismatch => responseWord .checksumMismatch 0x0000
  | .unexpectedMeasurementKind => responseWord .unexpectedKind 0x0000

/-- The register after a command, from the register before it. -/
def registerAfter : Instr → Byte → Byte
  | .crcInit, _ => Config.crcInit
  | .crcByte b, c => crcByte c b
  | .crcGet, c => c
  | .crcCmp _, c => c
  | .crc8 b0 b1, _ => crc8 b0 b1
  | .verify b0 b1 _, _ => crc8 b0 b1
  | .cvtT _, c => c
  | .cvtH _, c => c
  | .rplyT b0 b1 _, _ => crc8 b0 b1
  | .rplyH b0 b1 _, _ => crc8 b0 b1

/-- The response word to a command, from the register before it. -/
def responseTo : Instr → Byte → Word
  | .crcInit, _ => responseWord .ok 0x0000
  | .crcByte b, c => responseWord .ok (checksumPayload (crcByte c b))
  | .crcGet, c => responseWord .ok (checksumPayload c)
  | .crcCmp e, c => responseWord .ok (boolPayload (c == e))
  | .crc8 b0 b1, _ => responseWord .ok (checksumPayload (crc8 b0 b1))
  | .verify b0 b1 e, _ => responseWord .ok (boolPayload (verify b0 b1 e))
  | .cvtT raw, _ => responseWord .ok (tc16 (conv .temperature (maskRaw raw)))
  | .cvtH raw, _ => responseWord .ok (tc16 (conv .humidity (maskRaw raw)))
  | .rplyT b0 b1 chk, _ => replyResponse (checkReply .temperature b0 b1 chk)
  | .rplyH b0 b1 chk, _ => replyResponse (checkReply .humidity b0 b1 chk)

/-- The register after an accepted word: an illegal one leaves it alone (R60). -/
def registerAfterWord (w : Word) (c : Byte) : Byte :=
  match decode w with
  | .ok i => registerAfter i c
  | .error _ => c

/-- The response word to an accepted word (R60). -/
def responseToWord (w : Word) (c : Byte) : Word :=
  match decode w with
  | .ok i => responseTo i c
  | .error _ => responseWord .illegal 0x0000

theorem State.answerReply_eq (s : State) (r : ReplyResult) :
    s.answerReply r = { s with received := s.received ++ [replyResponse r] } := by
  cases r <;> rfl

/-- A reply command leaves the computed checksum in `C` and answers its result, whatever that is (R54, R55). -/
theorem State.reply_eq (s : State) (k : Kind) (b0 b1 chk : Byte) :
    s.reply k b0 b1 chk = { s with
      c := crc8 b0 b1
      received := s.received ++ [replyResponse (checkReply k b0 b1 chk)] } := by
  rw [State.reply, State.answerReply_eq]
  rfl

/-- Every command completes: it writes `registerAfter` and answers `responseTo`, and touches nothing else. -/
theorem exec_eq (i : Instr) (s : State) :
    exec i s = .next { s with
      c := registerAfter i s.c
      received := s.received ++ [responseTo i s.c] } := by
  cases i with
  | rplyT b0 b1 chk | rplyH b0 b1 chk => exact congrArg Host.Outcome.next (s.reply_eq _ b0 b1 chk)
  | _ => rfl

/-- Every accepted word, legal or not, completes in the same way. -/
theorem runWord_eq (w : Word) (s : State) :
    runWord w s = .next { s with
      c := registerAfterWord w s.c
      received := s.received ++ [responseToWord w s.c] } := by
  unfold runWord registerAfterWord responseToWord
  cases decode w with
  | ok i => exact exec_eq i s
  | error cause => rfl

theorem registerAfterWord_encode (i : Instr) (c : Byte) : registerAfterWord (encode i) c = registerAfter i c := by
  rw [registerAfterWord, decode_encode]

/-- A word that is no writer of R7 leaves the register alone. -/
theorem registerAfterWord_of_not_writesC {w : Word} (h : writesC w = false) (c : Byte) :
    registerAfterWord w c = c := by
  unfold writesC at h
  unfold registerAfterWord
  cases hd : decode w with
  | error cause => rfl
  | ok i =>
    rw [hd] at h
    cases i with
    | crcGet | crcCmp | cvtT | cvtH => rfl
    | crcInit | crcByte | crc8 | verify | rplyT | rplyH => cases h

/-- The opcodes of the writers of R7. -/
theorem opField_of_writesC {w : Word} (h : writesC w = true) :
    opField w ∈ ([0x01, 0x02, 0x10, 0x11, 0x30, 0x31] : List Byte) := by
  unfold writesC at h
  cases hd : decode w with
  | error cause => rw [hd] at h; cases h
  | ok i =>
    rw [hd] at h
    rw [← encode_of_decode hd]
    cases i with
    | crcGet | crcCmp | cvtT | cvtH => cases h
    | crcInit | crcByte | crc8 | verify | rplyT | rplyH => simp [encode]

end Sys2Proof.Machine
end

section
/-! SUPPORT. One equation of the step for each event the host's script can begin with (spec/20_memory.md R19;
spec/70_reset_and_hazards.md R68). -/
namespace Sys2Proof.Machine

variable {s : State} {w : Word} {e : HostEvent} {rest : List HostEvent}

theorem State.takeEvent_cons (hs : s.script = e :: rest) :
    s.takeEvent = some (e, { s with script := rest }) :=
  (State.takeEvent_eq_some ..).mpr ⟨rest, hs, rfl⟩

theorem step_nil (hs : s.script = []) : step s = .next s := by
  rw [step, (State.takeEvent_eq_none s).mpr hs]

theorem step_present (hr : s.inReset = false) (hs : s.script = .present w :: rest) :
    step s = runWord w { s with script := rest } := by
  simp [step, State.takeEvent_cons hs, hr]

/-- The step at an accepted word, field by field. -/
theorem step_present_eq (hr : s.inReset = false) (hs : s.script = .present w :: rest) :
    step s = .next { s with
      c := registerAfterWord w s.c
      script := rest
      received := s.received ++ [responseToWord w s.c] } :=
  (step_present hr hs).trans (runWord_eq w _)

theorem step_present_inReset (hr : s.inReset = true) (hs : s.script = .present w :: rest) :
    step s = .next { s with script := rest } := by
  simp [step, State.takeEvent_cons hs, hr]

theorem step_presentThenReset (hs : s.script = .presentThenReset w :: rest) :
    step s = .next { s with c := 0x00, inReset := true, script := rest } := by
  rw [step, State.takeEvent_cons hs]
  rfl

theorem step_assertReset (hs : s.script = .assertReset :: rest) :
    step s = .next { s with c := 0x00, inReset := true, script := rest } := by
  rw [step, State.takeEvent_cons hs]
  rfl

theorem step_releaseReset (hr : s.inReset = true) (hs : s.script = .releaseReset :: rest) :
    step s = .next { s with c := 0x00, inReset := false, script := rest } := by
  simp [step, State.takeEvent_cons hs, State.releaseReset, hr, Config.resetC]

/-- Releasing an input that is not asserted only uses up the event (notes/assumptions/7.md). -/
theorem step_releaseReset_outOfReset (hr : s.inReset = false) (hs : s.script = .releaseReset :: rest) :
    step s = .next { s with script := rest } := by
  simp [step, State.takeEvent_cons hs, State.releaseReset, hr]

theorem runSteps_zero : runSteps 0 s = .next s := rfl

/-- A run's first step, where that step goes on. -/
theorem runSteps_succ {t : State} (k : Nat) (h : step s = .next t) : runSteps (k + 1) s = runSteps k t := by
  rw [runSteps, h]

end Sys2Proof.Machine
end

section
/-! SUPPORT. The CRC functions lose nothing: the bit that `crc_bit` shifts out at the top comes back as bit 0, since
the polynomial's bit 0 is set (spec/40_crc.md R31, R32). -/
namespace Sys2Proof.Machine

theorem crcBit_getLsbD_zero (c : Byte) : (crcBit c).getLsbD 0 = c.getLsbD 7 := by
  unfold crcBit
  split
  case isTrue h => simp [h, Config.crcPoly8]
  case isFalse h => simpa using h

/-- A byte is its bit 7 and its other bits moved up by one. -/
theorem byte_eq_of_shiftLeft_one {a b : Byte} (top : a.getLsbD 7 = b.getLsbD 7) (low : a <<< 1 = b <<< 1) : a = b := by
  ext i hi
  rcases Nat.lt_or_ge i 7 with h | h
  · have := congrArg (·.getLsbD (i + 1)) low
    simpa [show i + 1 < 8 by omega] using this
  · obtain rfl : i = 7 := by omega
    simpa using top

theorem crcBit_injective : Function.Injective crcBit := by
  intro a b h
  have top : a.getLsbD 7 = b.getLsbD 7 := by rw [← crcBit_getLsbD_zero, ← crcBit_getLsbD_zero, h]
  refine byte_eq_of_shiftLeft_one top ?_
  unfold crcBit at h
  rw [top] at h
  split at h
  case isTrue => exact (BitVec.xor_left_inj _).mp h
  case isFalse => exact h

theorem crcBits_injective (n : Nat) : Function.Injective (crcBits n) := by
  induction n with
  | zero => exact Function.injective_id
  | succ n ih => exact ih.comp crcBit_injective

/-- For each old register, every new register comes from exactly one data byte. -/
theorem crcByte_bijective (c : Byte) : Function.Bijective (crcByte c) := by
  refine Finite.injective_iff_bijective.mp fun a b h => ?_
  exact (BitVec.xor_right_inj _).mp (crcBits_injective 8 h)

end Sys2Proof.Machine
end

section
/-! The statements of spec/10_state.md, with what each needs beyond the lemmas above. -/
namespace Sys2Proof.Machine

/-- Settles O39. -/
theorem stepRunsDecodedCommand : Obligations.StepRunsDecodedCommand := by
  intro s w rest i hr hs hd _
  rw [step_present hr hs, runWord, hd]

/-- Settles O41. -/
theorem blockWaitsForHost : Obligations.BlockWaitsForHost :=
  fun _ hs => step_nil hs

/-- Settles O42. -/
theorem resetClearsRegister : Obligations.ResetClearsRegister :=
  ⟨State.reset_c, fun _ _ hs => ⟨_, step_assertReset hs, rfl, rfl, rfl⟩,
    fun _ _ hr hs => step_releaseReset hr hs⟩

/-- Settles O45: no response has been taken yet. -/
theorem resetAnswersLegal : Obligations.ResetAnswersLegal := by
  rw [Obligations.ResetAnswersLegal, State.answersLegal, State.reset_received, List.all_nil]

/-- Settles O51, event by event: a word changes `C` only out of reset and only if it is a writer, and of the other
events only those that apply reset change it. -/
theorem onlyListedWritersWriteC : Obligations.OnlyListedWritersWriteC := by
  intro s t hstep hne
  cases hs : s.script with
  | nil =>
    rw [step_nil hs] at hstep
    cases hstep
    exact absurd rfl hne
  | cons e rest =>
    cases e with
    | present w =>
      cases hr : s.inReset with
      | true =>
        rw [step_present_inReset hr hs] at hstep
        cases hstep
        exact absurd rfl hne
      | false =>
        rw [step_present_eq hr hs] at hstep
        cases hstep
        have hw : writesC w = true :=
          eq_true_of_ne_false fun hw => hne (registerAfterWord_of_not_writesC hw s.c)
        exact .inl ⟨w, rest, rfl, rfl, opField_of_writesC hw, hw⟩
    | presentThenReset w =>
      rw [step_presentThenReset hs] at hstep
      cases hstep
      exact .inr ⟨rfl, _, rest, rfl, nofun⟩
    | assertReset =>
      rw [step_assertReset hs] at hstep
      cases hstep
      exact .inr ⟨rfl, _, rest, rfl, nofun⟩
    | releaseReset =>
      cases hr : s.inReset with
      | true =>
        rw [step_releaseReset hr hs] at hstep
        cases hstep
        exact .inr ⟨rfl, _, rest, rfl, nofun⟩
      | false =>
        rw [step_releaseReset_outOfReset hr hs] at hstep
        cases hstep
        exact absurd rfl hne

/-- A command other than the three readers of R7 answers the same word whatever the register holds. -/
theorem responseTo_of_not_reader {i : Instr} (hbyte : i.mnemonic ≠ .crcByte) (hget : i.mnemonic ≠ .crcGet)
    (hcmp : i.mnemonic ≠ .crcCmp) (c c' : Byte) : responseTo i c = responseTo i c' := by
  cases i with
  | crcByte => exact absurd rfl hbyte
  | crcGet => exact absurd rfl hget
  | crcCmp => exact absurd rfl hcmp
  | crcInit | crc8 | verify | cvtT | cvtH | rplyT | rplyH => rfl

/-- Every command but CRC.BYTE either loads the register with a value of its own or leaves it alone. -/
theorem registerAfter_const_or_id {i : Instr} (hbyte : i.mnemonic ≠ .crcByte) :
    (∃ v, ∀ c, registerAfter i c = v) ∨ ∀ c, registerAfter i c = c := by
  cases i with
  | crcByte => exact absurd rfl hbyte
  | crcGet | crcCmp | cvtT | cvtH => exact .inr fun _ => rfl
  | crcInit | crc8 | verify | rplyT | rplyH => exact .inl ⟨_, fun _ => rfl⟩

/-- Settles O52. -/
theorem onlyListedReadersReadC : Obligations.OnlyListedReadersReadC := by
  intro i hbyte hget hcmp
  refine ⟨responseTo i 0x00, fun s => ⟨_, exec_eq i s, ?_⟩, ?_⟩
  · rw [responseTo_of_not_reader hbyte hget hcmp s.c 0x00]
  · rcases registerAfter_const_or_id hbyte with ⟨v, hv⟩ | hid
    · exact .inl ⟨v, fun s => ⟨_, exec_eq i s, hv s.c⟩⟩
    · exact .inr fun s => ⟨_, exec_eq i s, hid s.c⟩

/-- CRC.INIT and then CRC.BYTE b leave `crc_byte(0x00, b)` in the register, whatever it held before (R35, R36). -/
theorem runSteps_crcInit_crcByte_iff {s : State} {b v : Byte} (hr : s.inReset = false)
    (hs : s.script = commandScript [encode .crcInit, encode (.crcByte b)]) :
    (∃ t, runSteps 2 s = .next t ∧ t.c = v) ↔ crcByte Config.crcInit b = v := by
  have run : runSteps 2 s = _ :=
    (runSteps_succ 1 (step_present_eq hr hs)).trans (runSteps_succ 0 (step_present_eq hr rfl))
  simp [run, runSteps_zero, registerAfterWord_encode, registerAfter]

/-- Settles O53: the byte sought is the one that `crc_byte` takes from 0x00 to the chosen value. -/
theorem everyRegisterValueReached : Obligations.EveryRegisterValueReached := by
  intro v
  obtain ⟨b, hb, unique⟩ := (crcByte_bijective Config.crcInit).existsUnique v
  refine ⟨b, fun s hr hs => (runSteps_crcInit_crcByte_iff hr hs).mpr hb, fun b' hb' => unique b' ?_⟩
  have reached := hb' { State.reset with script := commandScript [encode .crcInit, encode (.crcByte b')] } rfl rfl
  exact (runSteps_crcInit_crcByte_iff rfl rfl).mp reached

end Sys2Proof.Machine
end

section
/-! SUPPORT. The reference of Safety.lean on plain numbers computes what the block's own functions compute: the 9-bit
CRC iteration (spec/40_crc.md R41 law 6), the payloads of R46 to R49, the answer to a reply (R53), and from these the
whole transaction of a command word. -/
namespace Sys2Proof.Machine

/-- Shifting first and taking the 9-bit pattern off a set bit 8 is `crc_bit`: bit 8 of both operands cancels, and the
low byte of 0x131 is 0x31 (R31). -/
theorem refCrcBit_toNat (c : Byte) : refCrcBit c.toNat = (crcBit c).toNat := by
  have hc := c.isLt
  have top : c.getLsbD 7 = true ↔ 128 ≤ c.toNat :=
    (iff_of_eq (congrArg (· = true) (BitVec.msb_eq_decide c))).trans decide_eq_true_iff
  have shifted : (c <<< 1).toNat = 2 * c.toNat % 2 ^ 8 := by
    rw [BitVec.toNat_shiftLeft, Nat.shiftLeft_eq, Nat.mul_comm, pow_one]
  unfold refCrcBit crcBit
  by_cases h : 128 ≤ c.toNat
  · have low : (2 * c.toNat ^^^ 0x131) % 2 ^ 8 = 2 * c.toNat % 2 ^ 8 ^^^ 0x31 := Nat.xor_mod_two_pow
    have high : (2 * c.toNat ^^^ 0x131) / 2 ^ 8 = 2 * c.toNat / 2 ^ 8 ^^^ 1 := Nat.xor_div_two_pow
    rw [show 2 * c.toNat / 2 ^ 8 = 1 by omega, Nat.xor_self] at high
    rw [if_neg (by omega), if_pos (top.mpr h), BitVec.toNat_xor, shifted]
    exact (Nat.mod_eq_of_lt (by omega)).symm.trans low
  · rw [if_pos (by omega), if_neg (mt top.mp h), shifted]
    omega

theorem refCrcByte_toNat (c b : Byte) : refCrcByte c.toNat b.toNat = (crcByte c b).toNat := by
  simp only [refCrcByte, ← BitVec.toNat_xor, refCrcBit_toNat]
  rfl

theorem refCrc8_toNat (b0 b1 : Byte) : refCrcByte (refCrcByte 0 b0.toNat) b1.toNat = (crc8 b0 b1).toNat :=
  (congrArg (refCrcByte · b1.toNat) (refCrcByte_toNat Config.crcInit b0)).trans (refCrcByte_toNat _ b1)

theorem refPayload_toNat (v : Int) : refPayload v = (tc16 v).toNat := by
  rw [tc16, BitVec.toNat_ofInt]
  rfl

/-- The reference has the rounding term of R46 folded into its constant. -/
theorem refTemperature_toNat (raw : Half) :
    refTemperature raw.toNat = (tc16 (conv .temperature (maskRaw raw))).toNat := by
  rw [refTemperature, refPayload_toNat, conv, convT, tdiv_eq_tdiv, maskRaw_toNat]
  congr 3
  simp only [Config.tOffset, Config.tSlope, Config.tRound]
  push_cast
  ring

/-- The reference has the rounding term of R47 folded into its constant. -/
theorem refHumidity_toNat (raw : Half) :
    refHumidity raw.toNat = (tc16 (conv .humidity (maskRaw raw))).toNat := by
  rw [refHumidity, refPayload_toNat, conv, convH, tdiv_eq_tdiv, maskRaw_toNat]
  congr 3
  simp only [Config.hOffset, Config.hSlope, Config.hRound]
  push_cast
  ring

/-- Under status OK the response word is its payload. -/
theorem responseWord_ok_toNat (p : Half) : (responseWord .ok p).toNat = p.toNat := by
  simp [responseWord_toNat, Status.code]

theorem checksumPayload_toNat (v : Byte) : (checksumPayload v).toNat = v.toNat := by
  have := v.isLt
  rw [checksumPayload, BitVec.toNat_setWidth]
  omega

theorem boolPayload_beq_toNat (a b : Byte) : (boolPayload (a == b)).toNat = if a.toNat = b.toNat then 1 else 0 := by
  by_cases h : a = b <;> simp [boolPayload, h, BitVec.toNat_inj]

/-- The tag of a reply, read from its second byte (R44, R45). -/
theorem tagMatches_rawOf (k : Kind) (b0 b1 : Byte) :
    tagMatches k (rawOf b0 b1) = true ↔ b1.toNat % 4 = (expectedTag k).toNat := by
  rw [tagMatches, beq_iff_eq, ← BitVec.toNat_inj, tagOf_toNat, rawOf_toNat]
  omega

/-- The raw reading of two bytes, as the reference puts it together (R16). -/
theorem refRaw_toNat (b0 b1 : Byte) : 256 * b0.toNat + b1.toNat = (rawOf b0 b1).toNat := by
  rw [rawOf_toNat, Nat.mul_comm]

/-- The three outcomes of R53 in their order, for either kind, from its tag and its payload. -/
theorem refReply_toNat (k : Kind) (b0 b1 chk : Byte) :
    refReply (crc8 b0 b1).toNat chk.toNat (b1.toNat % 4) (expectedTag k).toNat
        (tc16 (conv k (maskRaw (rawOf b0 b1)))).toNat =
      (replyResponse (checkReply k b0 b1 chk)).toNat := by
  have checksum : (crc8 b0 b1).toNat = chk.toNat ↔ verify b0 b1 chk = true := by
    rw [BitVec.toNat_inj, verify, beq_iff_eq]
  simp only [refReply, ne_eq, checksum, ← tagMatches_rawOf k b0 b1]
  obtain ⟨hv, hres⟩ | ⟨hv, ht, hres⟩ | ⟨hv, ht, hres⟩ := checkReply_cases k b0 b1 chk
  · rw [if_pos (by simp [hv]), hres]
    rfl
  · rw [if_neg (by simp [hv]), if_pos (by simp [ht]), hres]
    rfl
  · rw [if_neg (by simp [hv]), if_neg (by simp [ht]), hres]
    exact (responseWord_ok_toNat _).symm

/-- A command's transaction, as the reference computes it from the numeric fields of the command's encoding: the opcode
selects the command's own clause, and the clause computes what the command does. -/
theorem refTransact_encode (i : Instr) (c : Byte) :
    refTransact c.toNat (encode i).toNat = ((registerAfter i c).toNat, (responseTo i c).toNat) := by
  simp only [refTransact, ← opField_toNat, ← d0Field_toNat, ← d1Field_toNat, ← xField_toNat, refRaw_toNat,
    refCrc8_toNat]
  cases i with
  | crcInit => simp [encode, registerAfter, responseTo, Config.crcInit, responseWord_ok_toNat]
  | crcByte b =>
    simp [encode, registerAfter, responseTo, refCrcByte_toNat, responseWord_ok_toNat, checksumPayload_toNat]
  | crcGet => simp [encode, registerAfter, responseTo, responseWord_ok_toNat, checksumPayload_toNat]
  | crcCmp e => simp [encode, registerAfter, responseTo, responseWord_ok_toNat, boolPayload_beq_toNat]
  | crc8 b0 b1 => simp [encode, registerAfter, responseTo, responseWord_ok_toNat, checksumPayload_toNat]
  | verify b0 b1 e => simp [encode, registerAfter, responseTo, responseWord_ok_toNat, verify, boolPayload_beq_toNat]
  | cvtT raw =>
    simp [encode, registerAfter, responseTo, responseWord_ok_toNat, rawOf, half_eq_append, refTemperature_toNat]
  | cvtH raw =>
    simp [encode, registerAfter, responseTo, responseWord_ok_toNat, rawOf, half_eq_append, refHumidity_toNat]
  | rplyT b0 b1 chk =>
    simpa [encode, registerAfter, responseTo, refTemperature_toNat, expectedTag, Config.tagTemperature] using
      refReply_toNat .temperature b0 b1 chk
  | rplyH b0 b1 chk =>
    simpa [encode, registerAfter, responseTo, refHumidity_toNat, expectedTag, Config.tagHumidity] using
      refReply_toNat .humidity b0 b1 chk

/-- A word that the decoder refuses meets none of the reference's ten conditions on numeric fields (R60). -/
theorem refTransact_of_illegal {w : Word} {cause : Illegal} (h : decode w = .error cause) (c : Nat) :
    refTransact c w.toNat = (c, 0xF0000000) := by
  simp only [decode_eq_fields, ← BitVec.toNat_inj, BitVec.ofNat_eq_ofNat, BitVec.toNat_ofNat, Nat.reducePow,
    Nat.reduceMod] at h
  split_ifs at h
  simp only [refTransact, ← opField_toNat, ← d0Field_toNat, ← d1Field_toNat, ← xField_toNat]
  simp only [*, if_false]

theorem responseToWord_encode (i : Instr) (c : Byte) : responseToWord (encode i) c = responseTo i c := by
  rw [responseToWord, decode_encode]

/-- The reference transaction is the register and the response of an accepted word, for every word. -/
theorem transact_eq (c : Byte) (w : Word) : transact c w = (registerAfterWord w c, responseToWord w c) := by
  have numbers : refTransact c.toNat w.toNat = ((registerAfterWord w c).toNat, (responseToWord w c).toNat) := by
    cases hd : decode w with
    | ok i => rw [← encode_of_decode hd, refTransact_encode, registerAfterWord_encode, responseToWord_encode]
    | error cause =>
      rw [refTransact_of_illegal hd, registerAfterWord, responseToWord, hd]
      rfl
  rw [transact, numbers, BitVec.ofNat_toNat, BitVec.ofNat_toNat, BitVec.setWidth_eq, BitVec.setWidth_eq]

end Sys2Proof.Machine
end

section
/-! The statements of spec/20_memory.md, with what each needs beyond the lemmas above. -/
namespace Sys2Proof.Machine

/-- Settles O50, by induction on the words presented: each step is one reference transaction. -/
theorem runIsFoldOfTransactions : Obligations.RunIsFoldOfTransactions := by
  intro ws
  induction ws with
  | nil =>
    intro s rest _ hs
    obtain rfl : s.script = rest := hs
    simp [runSteps_zero, transcript]
  | cons w ws ih =>
    intro s rest hr hs
    have first := step_present_eq (rest := commandScript ws ++ rest) hr hs
    rw [List.length_cons, runSteps_succ _ first, ih { s with
      c := registerAfterWord w s.c
      script := commandScript ws ++ rest
      received := s.received ++ [responseToWord w s.c] } rest hr rfl, transcript, transact_eq, List.append_assoc]
    rfl

/-- Every command but CRC.BYTE leaves alone the register that it has left behind. -/
theorem registerAfter_idem {i : Instr} (hbyte : i.mnemonic ≠ .crcByte) (c : Byte) :
    registerAfter i (registerAfter i c) = registerAfter i c := by
  rcases registerAfter_const_or_id hbyte with ⟨v, hv⟩ | hid
  · rw [hv, hv]
  · exact hid _

/-- Every command but CRC.BYTE answers the same word from the register that it has left behind: CRC.GET and CRC.CMP,
which read it, do not write it. -/
theorem responseTo_registerAfter {i : Instr} (hbyte : i.mnemonic ≠ .crcByte) (c : Byte) :
    responseTo i (registerAfter i c) = responseTo i c := by
  cases i with
  | crcByte => exact absurd rfl hbyte
  | crcGet | crcCmp => rfl
  | crcInit | crc8 | verify | cvtT | cvtH | rplyT | rplyH => rfl

/-- Settles O55: register and response of the second execution are those of the first. -/
theorem repeatingIsIdempotent : Obligations.RepeatingIsIdempotent := by
  intro i s hbyte
  refine ⟨registerAfter i s.c, responseTo i s.c, exec_eq i s, ?_⟩
  rw [exec_eq, registerAfter_idem hbyte, responseTo_registerAfter hbyte, List.append_assoc]
  rfl

end Sys2Proof.Machine
end

section
/-! SUPPORT. The decoder as the inverse of the encoder: which command a word is, read off its fields or off its row's
mask (spec/30_encoding.md R22, R26), and which of the two causes of R27 makes a word illegal. -/
namespace Sys2Proof

/-- A word decodes to a command exactly when it is that command's encoding. -/
theorem decode_eq_ok_iff {w : Word} {i : Instr} : decode w = .ok i ↔ encode i = w := by
  refine ⟨encode_of_decode, ?_⟩
  rintro rfl
  exact decode_encode i

theorem wordOf_eq_iff {op d0 d1 x : Byte} {w : Word} :
    wordOf op d0 d1 x = w ↔ opField w = op ∧ d0Field w = d0 ∧ d1Field w = d1 ∧ xField w = x := by
  conv_lhs => rw [eq_comm, ← wordOf_fields w, wordOf_inj]

section
variable {w : Word} {i : Instr} {op : Byte}

theorem maskN_iff_decode (h : encode i = wordOf op 0 0 0) :
    w &&& Format.mask .n = wordOf op 0 0 0 ↔ decode w = .ok i := by
  rw [maskN_iff, decode_eq_ok_iff, h, wordOf_eq_iff]

theorem maskB_iff_decode (h : encode i = wordOf op 0 0 (xField w)) :
    w &&& Format.mask .b = wordOf op 0 0 0 ↔ decode w = .ok i := by
  simp only [maskB_iff, decode_eq_ok_iff, h, wordOf_eq_iff, and_true]

theorem maskD_iff_decode (h : encode i = wordOf op (d0Field w) (d1Field w) 0) :
    w &&& Format.mask .d = wordOf op 0 0 0 ↔ decode w = .ok i := by
  simp only [maskD_iff, decode_eq_ok_iff, h, wordOf_eq_iff, true_and]

theorem maskR_iff_decode (h : encode i = wordOf op (d0Field w) (d1Field w) (xField w)) :
    w &&& Format.mask .r = wordOf op 0 0 0 ↔ decode w = .ok i := by
  simp only [maskR_iff, decode_eq_ok_iff, h, wordOf_eq_iff, and_true]

end

theorem rawField_eq_zero_iff (w : Word) : rawField w = 0 ↔ d0Field w = 0 ∧ d1Field w = 0 := by
  simp only [← BitVec.toNat_inj, rawField_toNat, d0Field_toNat, d1Field_toNat, BitVec.ofNat_eq_ofNat,
    BitVec.toNat_ofNat]
  omega

/-- The three operand fields together are the word's bits 23:0 (R21). -/
theorem operandBits_eq_zero_iff (w : Word) :
    w.extractLsb' 0 24 = 0 ↔ d0Field w = 0 ∧ d1Field w = 0 ∧ xField w = 0 := by
  simp only [← BitVec.toNat_inj, d0Field_toNat, d1Field_toNat, xField_toNat, BitVec.extractLsb'_toNat,
    Nat.shiftRight_zero, BitVec.ofNat_eq_ofNat, BitVec.toNat_ofNat]
  omega

/-- The opcodes of the ten rows of R26. -/
def listedOpcodes : List Byte := [0x01, 0x02, 0x03, 0x04, 0x10, 0x11, 0x20, 0x21, 0x30, 0x31]

/-- The opcode is listed and a field that its format requires to be zero is not (R22, R27). -/
def MustBeZeroViolated (w : Word) : Prop :=
  (opField w ∈ ([0x01, 0x03] : List Byte) ∧ w.extractLsb' 0 24 ≠ 0) ∨
  (opField w ∈ ([0x02, 0x04] : List Byte) ∧ rawField w ≠ 0) ∨
  (opField w ∈ ([0x10, 0x20, 0x21] : List Byte) ∧ xField w ≠ 0)

theorem MustBeZeroViolated.listed {w : Word} (h : MustBeZeroViolated w) : opField w ∈ listedOpcodes := by
  obtain ⟨hop, _⟩ | ⟨hop, _⟩ | ⟨hop, _⟩ := h
  all_goals exact (by decide : _ ⊆ listedOpcodes) hop

theorem opcodeTable_any_iff (w : Word) :
    opcodeTable.any (fun row => opField row.pattern == opField w) = true ↔ opField w ∈ listedOpcodes := by
  rw [show listedOpcodes = opcodeTable.map (fun row => opField row.pattern) by decide]
  simp only [List.any_eq_true, List.mem_map, beq_iff_eq]

/-- A word that matches no row is illegal by its opcode or by a must-be-zero field, as its opcode is listed or not. -/
theorem illegalCause_eq (w : Word) :
    illegalCause w =
      if opField w ∈ listedOpcodes then .nonzeroMustBeZero (opField w) else .unlistedOpcode (opField w) := by
  simp only [illegalCause, opcodeTable_any_iff]

theorem ite_ok_eq_error_iff {P : Prop} [Decidable P] {i : Instr} {cause cause' : Illegal} :
    (if P then .ok i else .error cause : Except Illegal Instr) = .error cause' ↔ cause = cause' ∧ ¬ P := by
  split <;> simp [*]

/-- A word is refused exactly when its opcode is unlisted or a must-be-zero field is not zero, and only with the
cause that `illegalCause` names (R27). The proof goes through the ten opcodes, whose rows test different fields. -/
theorem decode_eq_error_iff (w : Word) (cause : Illegal) :
    decode w = .error cause ↔ illegalCause w = cause ∧ (opField w ∈ listedOpcodes → MustBeZeroViolated w) := by
  rw [decode_eq_fields, MustBeZeroViolated, ne_eq, ne_eq, operandBits_eq_zero_iff, rawField_eq_zero_iff]
  by_cases hop : opField w ∈ listedOpcodes
  · have ten := hop
    simp only [listedOpcodes, List.mem_cons, List.not_mem_nil, or_false] at ten
    rcases ten with h | h | h | h | h | h | h | h | h | h
    all_goals simp [h, listedOpcodes, ite_ok_eq_error_iff]
  · simp_all [listedOpcodes]

end Sys2Proof
end

section
/-! SUPPORT. Well-formed written lines and commands (spec/30_encoding.md R29). -/
namespace Sys2Proof

theorem AsmLine.wellFormed_iff (line : AsmLine) :
    line.wellFormed = true ↔ line.countOk = true ∧ line.rangeOk = true :=
  Bool.and_eq_true_iff

/-- Every command is well-formed, since its operands have their widths by type. -/
theorem Instr.wellFormed_eq_true (i : Instr) : i.wellFormed = true := by
  cases i with
  | crcInit => exact Laws.WellFormed.crcInit
  | crcByte b => exact Laws.WellFormed.crcByte b
  | crcGet => exact Laws.WellFormed.crcGet
  | crcCmp e => exact Laws.WellFormed.crcCmp e
  | crc8 b0 b1 => exact Laws.WellFormed.crc8 b0 b1
  | verify b0 b1 e => exact Laws.WellFormed.verify b0 b1 e
  | cvtT raw => exact Laws.WellFormed.cvtT raw
  | cvtH raw => exact Laws.WellFormed.cvtH raw
  | rplyT b0 b1 chk => exact Laws.WellFormed.rplyT b0 b1 chk
  | rplyH b0 b1 chk => exact Laws.WellFormed.rplyH b0 b1 chk

end Sys2Proof
end

section
/-! SUPPORT. The assembler as the inverse of the written form (spec/30_encoding.md R29). -/
namespace Sys2Proof.Machine

theorem commandOfLine_written (i : Instr) : commandOfLine i.written = some i := by
  cases i <;> simp [Instr.written, commandOfLine]

/-- A line with its mnemonic's number of operands holds a command, in range or not. -/
theorem exists_commandOfLine_of_countOk {line : AsmLine} (h : line.countOk = true) :
    ∃ i, commandOfLine line = some i := by
  obtain ⟨m, ops⟩ := line
  replace h : ops.length = m.operandBounds.length := beq_iff_eq.mp h
  cases m with
  | crcInit | crcGet =>
    obtain rfl := List.length_eq_zero_iff.mp h
    exact ⟨_, rfl⟩
  | crcByte | crcCmp | cvtT | cvtH =>
    obtain ⟨a, rfl⟩ := List.length_eq_one_iff.mp h
    exact ⟨_, rfl⟩
  | crc8 =>
    obtain ⟨a, b, rfl⟩ := List.length_eq_two.mp h
    exact ⟨_, rfl⟩
  | verify | rplyT | rplyH =>
    obtain ⟨a, b, c, rfl⟩ := List.length_eq_three.mp h
    exact ⟨_, rfl⟩

/-- Within the ranges of R29 no operand is cut to its width. -/
theorem written_of_commandOfLine {line : AsmLine} {i : Instr} (hrange : line.rangeOk = true)
    (h : commandOfLine line = some i) : i.written = line := by
  obtain ⟨m, ops⟩ := line
  unfold commandOfLine at h
  split at h
  case h_11 => cases h
  all_goals
    obtain rfl := Option.some.inj h
    simp_all [AsmLine.rangeOk, Mnemonic.operandBounds, Instr.written, Nat.mod_eq_of_lt]

theorem assemble_eq_ok_iff {line : AsmLine} {i : Instr} :
    assemble line = .ok i ↔ line.rangeOk = true ∧ commandOfLine line = some i := by
  unfold assemble
  cases line.rangeOk <;> cases commandOfLine line <;> simp

/-- A line assembles to a command exactly when it is the command's written line. -/
theorem assemble_eq_ok_iff_written {line : AsmLine} {i : Instr} : assemble line = .ok i ↔ i.written = line := by
  rw [assemble_eq_ok_iff]
  constructor
  · rintro ⟨hrange, hcommand⟩
    exact written_of_commandOfLine hrange hcommand
  · rintro rfl
    exact ⟨((AsmLine.wellFormed_iff _).mp i.wellFormed_eq_true).2, commandOfLine_written i⟩

end Sys2Proof.Machine
end

section
/-! SUPPORT. The form of every response (spec/30_encoding.md R24, R25), and which steps produce none. -/
namespace Sys2Proof.Machine

/-- A response word as a status and a payload, the payload zero unless the status is OK; `HasResponseForm.legal` ties
it to `legalResponse`. -/
def HasResponseForm (resp : Word) : Prop :=
  ∃ (st : Status) (p : Half), resp = responseWord st p ∧ (st = .ok ∨ p = 0)

theorem hasResponseForm_ok (p : Half) : HasResponseForm (responseWord .ok p) := ⟨.ok, p, rfl, .inl rfl⟩

theorem hasResponseForm_error (st : Status) : HasResponseForm (responseWord st 0) := ⟨st, 0, rfl, .inr rfl⟩

theorem hasResponseForm_replyResponse (r : ReplyResult) : HasResponseForm (replyResponse r) := by
  cases r with
  | ok v => exact hasResponseForm_ok _
  | checksumMismatch => exact hasResponseForm_error _
  | unexpectedMeasurementKind => exact hasResponseForm_error _

theorem hasResponseForm_responseTo (i : Instr) (c : Byte) : HasResponseForm (responseTo i c) := by
  cases i with
  | rplyT | rplyH => exact hasResponseForm_replyResponse _
  | crcInit | crcByte | crcGet | crcCmp | crc8 | verify | cvtT | cvtH => exact hasResponseForm_ok _

theorem hasResponseForm_responseToWord (w : Word) (c : Byte) : HasResponseForm (responseToWord w c) := by
  unfold responseToWord
  cases decode w with
  | ok i => exact hasResponseForm_responseTo i c
  | error _ => exact hasResponseForm_error _

theorem HasResponseForm.legal {resp : Word} (h : HasResponseForm resp) : legalResponse resp = true := by
  obtain ⟨st, p, rfl, rfl | rfl⟩ := h
  · simp [legalResponse, Status.code]
  · cases st <;> simp [legalResponse, Status.code]

/-- A step that accepts no word, since none is presented or the block is in reset, produces no response. -/
theorem step_received_of_not_accepted {s t : State} (hstep : step s = .next t)
    (hnone : (∀ (w : Word) (rest : List HostEvent), s.script ≠ .present w :: rest) ∨ s.inReset = true) :
    t.received = s.received := by
  have received_eq {u : State} (hu : step s = .next u) (hsame : u.received = s.received) : t.received = s.received := by
    rw [Host.Outcome.next.inj (hstep.symm.trans hu), hsame]
  cases hs : s.script with
  | nil => exact received_eq (step_nil hs) rfl
  | cons e rest =>
    cases e with
    | present w =>
      have hr : s.inReset = true := hnone.resolve_left fun hno => hno w rest hs
      exact received_eq (step_present_inReset hr hs) rfl
    | presentThenReset w => exact received_eq (step_presentThenReset hs) rfl
    | assertReset => exact received_eq (step_assertReset hs) rfl
    | releaseReset =>
      cases hr : s.inReset with
      | true => exact received_eq (step_releaseReset hr hs) rfl
      | false => exact received_eq (step_releaseReset_outOfReset hr hs) rfl

/-- What a step adds to the host's responses: nothing, or one word of the form of R24. -/
theorem step_received_cases {s t : State} (hstep : step s = .next t) :
    t.received = s.received ∨ ∃ resp, HasResponseForm resp ∧ t.received = s.received ++ [resp] := by
  by_cases haccepted : ∃ w rest, s.inReset = false ∧ s.script = .present w :: rest
  · obtain ⟨w, rest, hr, hs⟩ := haccepted
    rw [step_present_eq hr hs] at hstep
    cases hstep
    exact .inr ⟨_, hasResponseForm_responseToWord w s.c, rfl⟩
  · refine .inl (step_received_of_not_accepted hstep ?_)
    cases hr : s.inReset with
    | true => exact .inr rfl
    | false => exact .inl fun w rest hs => haccepted ⟨w, rest, hr, hs⟩

end Sys2Proof.Machine
end

section
/-! The statements of spec/30_encoding.md, assembled from the lemmas above. -/
namespace Sys2Proof.Machine

/-- Settles O3. -/
theorem decodeOfEncode : Obligations.DecodeOfEncode :=
  fun i => ⟨i.wellFormed_eq_true, decode_encode i⟩

/-- Settles O4. -/
theorem encodeOfDecode : Obligations.EncodeOfDecode :=
  fun _ _ => encode_of_decode

/-- Settles O48. -/
theorem responsesStayLegal : Obligations.ResponsesStayLegal := by
  intro s t hlegal hstep
  rw [State.answersLegal] at hlegal ⊢
  obtain hsame | ⟨resp, hform, happend⟩ := step_received_cases hstep
  · rwa [hsame]
  · rw [happend, List.all_append, hlegal, List.all_cons, hform.legal, List.all_nil]
    rfl

/-- Settles O49: the reference computes the register and the response of every accepted word. -/
theorem stepRefinesTransaction : Obligations.StepRefinesTransaction := by
  intro s w rest hr hs
  rw [step_present_eq hr hs, transact_eq]

/-- Settles O2: each row's mask test is a test of fields, and so is being the encoding of the row's command. -/
theorem wordIsCommandIffMaskedMatch : Obligations.WordIsCommandIffMaskedMatch := fun w =>
  have cvtT : encode (.cvtT (rawField w)) = wordOf 0x20 (d0Field w) (d1Field w) 0 := by simp [encode]
  have cvtH : encode (.cvtH (rawField w)) = wordOf 0x21 (d0Field w) (d1Field w) 0 := by simp [encode]
  ⟨maskN_iff_decode (op := 0x01) rfl, maskB_iff_decode (op := 0x02) rfl, maskN_iff_decode (op := 0x03) rfl,
    maskB_iff_decode (op := 0x04) rfl, maskD_iff_decode (op := 0x10) rfl, maskR_iff_decode (op := 0x11) rfl,
    maskD_iff_decode cvtT, maskD_iff_decode cvtH, maskR_iff_decode (op := 0x30) rfl,
    maskR_iff_decode (op := 0x31) rfl⟩

/-- Settles O5: the opcode alone decides the cause of a refused word, and a word refused although its opcode is listed
violates its format. -/
theorem illegalCausesNamed : Obligations.IllegalCausesNamed := by
  intro w
  constructor
  · show decode w = .error (.unlistedOpcode (opField w)) ↔ opField w ∉ listedOpcodes
    rw [decode_eq_error_iff, illegalCause_eq]
    by_cases hop : opField w ∈ listedOpcodes <;> simp [hop]
  · show decode w = .error (.nonzeroMustBeZero (opField w)) ↔ MustBeZeroViolated w
    rw [decode_eq_error_iff, illegalCause_eq]
    by_cases hop : opField w ∈ listedOpcodes
    · simp [hop]
    · simp [hop, mt MustBeZeroViolated.listed hop]

/-- Settles O6. -/
theorem writtenLineAssembles : Obligations.WrittenLineAssembles := by
  refine ⟨fun i => assemble_eq_ok_iff_written.mpr rfl, fun line => ⟨?_, ?_⟩,
    fun line i => assemble_eq_ok_iff_written.mp⟩
  · rintro ⟨i, hi⟩
    rw [← assemble_eq_ok_iff_written.mp hi]
    exact i.wellFormed_eq_true
  · intro hwf
    obtain ⟨hcount, hrange⟩ := (AsmLine.wellFormed_iff line).mp hwf
    obtain ⟨i, hi⟩ := exists_commandOfLine_of_countOk hcount
    exact ⟨i, assemble_eq_ok_iff.mpr ⟨hrange, hi⟩⟩

/-- Settles O47. -/
theorem oneResponsePerCommand : Obligations.OneResponsePerCommand := by
  intro s t hstep
  refine ⟨fun w rest hr hs => ?_, step_received_of_not_accepted hstep⟩
  rw [step_present_eq hr hs] at hstep
  cases hstep
  obtain ⟨st, p, hform, hlegal⟩ := hasResponseForm_responseToWord w s.c
  refine ⟨st.code, p, congrArg (s.received ++ [·]) hform, ?_, hr, rfl⟩
  cases st with
  | ok => exact .inl rfl
  | checksumMismatch | unexpectedKind | illegal =>
    exact .inr ⟨by simp [Status.code], hlegal.resolve_left nofun⟩

end Sys2Proof.Machine
end

section
/-! SUPPORT. A command word and an OK response as the unions of shifted fields that R22 and R24 write, and the words of
format D that are illegal by their X field. -/
namespace Sys2Proof.Machine

/-- The four fields of a command word do not overlap, so putting them together is a union (R21). -/
theorem wordOf_eq_or (op d0 d1 x : Byte) :
    wordOf op d0 d1 x =
      (op.zeroExtend 32 <<< 24) ||| (d0.zeroExtend 32 <<< 16) ||| (d1.zeroExtend 32 <<< 8) ||| x.zeroExtend 32 :=
  (BitVec.setWidth_eq _).symm.trans BitVec.setWidth_append_append_append_eq_shiftLeft_setWidth_or

/-- Under status OK the response word is its payload, the status code being zero (R24). -/
theorem responseWord_ok (p : Half) : responseWord .ok p = p.zeroExtend 32 := by
  apply BitVec.eq_of_toNat_eq
  have := p.isLt
  rw [responseWord_ok_toNat, BitVec.toNat_setWidth]
  omega

theorem responseWord_ok_checksumPayload (v : Byte) : responseWord .ok (checksumPayload v) = v.zeroExtend 32 := by
  rw [responseWord_ok, checksumPayload]
  exact BitVec.setWidth_setWidth (by decide)

theorem responseWord_ok_boolPayload_beq (a b : Byte) :
    responseWord .ok (boolPayload (a == b)) = if a = b then 0x00000001 else 0x00000000 := by
  by_cases h : a = b
  · rw [if_pos h, beq_iff_eq.mpr h]
    rfl
  · rw [if_neg h, beq_eq_false_iff_ne.mpr h]
    rfl

/-- A word of a format D opcode whose X field is not zero is refused for that field (R22, R27). -/
theorem decode_formatD_nonzero_x {op x : Byte} (hop : op ∈ ([0x10, 0x20, 0x21] : List Byte)) (hx : x ≠ 0)
    (d0 d1 : Byte) : decode (wordOf op d0 d1 x) = .error (.nonzeroMustBeZero op) := by
  have violated : MustBeZeroViolated (wordOf op d0 d1 x) := by
    rw [MustBeZeroViolated, opField_wordOf, xField_wordOf]
    exact .inr (.inr ⟨hop, hx⟩)
  rw [decode_eq_error_iff, illegalCause_eq, if_pos violated.listed, opField_wordOf]
  exact ⟨rfl, fun _ => violated⟩

end Sys2Proof.Machine
end

section
/-! SUPPORT. `crc_bit` with its test and its shift read as arithmetic (spec/40_crc.md R31), and the fixed point 0x00 of
the iterations (R36). -/
namespace Sys2Proof.Machine

/-- The tested bit is the top one, of weight 0x80. -/
theorem getLsbD_seven_iff (c : Byte) : c.getLsbD 7 = true ↔ 0x80 ≤ c.toNat :=
  (iff_of_eq (congrArg (· = true) (BitVec.msb_eq_decide c))).trans decide_eq_true_iff

theorem shiftLeft_one_toNat (c : Byte) : (c <<< 1).toNat = 2 * c.toNat % 256 := by
  rw [BitVec.toNat_shiftLeft, Nat.shiftLeft_eq, Nat.mul_comm, pow_one]

/-- `crc_bit` on numbers, in the second form of R31. -/
theorem crcBit_toNat (c : Byte) :
    (crcBit c).toNat = ((2 * c.toNat) % 256) ^^^ (if 0x80 ≤ c.toNat then 0x31 else 0x00) := by
  unfold crcBit
  by_cases top : c.getLsbD 7 = true
  · rw [if_pos top, if_pos ((getLsbD_seven_iff c).mp top), BitVec.toNat_xor, shiftLeft_one_toNat]
    rfl
  · rw [if_neg top, if_neg (mt (getLsbD_seven_iff c).mpr top), shiftLeft_one_toNat, Nat.xor_zero]

theorem crcBits_zero (n : Nat) : crcBits n 0x00 = 0x00 := by
  induction n with
  | zero => rfl
  | succ n ih => exact ih

/-- A byte equal to the register brings it to zero (R36). -/
theorem crcByte_self (c : Byte) : crcByte c c = 0x00 := by
  rw [crcByte, BitVec.xor_self]
  exact crcBits_zero 8

theorem crc8_zero_zero : crc8 0x00 0x00 = 0x00 :=
  (congrArg (crcByte · 0x00) (crcByte_self 0x00)).trans (crcByte_self 0x00)

end Sys2Proof.Machine
end

section
/-! The statements of spec/40_crc.md on the CRC functions and the commands of the CRC unit, assembled from the lemmas
above. -/
namespace Sys2Proof.Machine

/-- Settles O26. -/
theorem crc8LoadsChecksum : Obligations.Crc8LoadsChecksum := by
  refine ⟨fun b0 b1 s => ⟨?_, ?_⟩, fun b0 b1 x hx => decode_formatD_nonzero_x (by decide) hx b0 b1⟩
  · simp [encode, wordOf_eq_or]
  · rw [exec_eq, responseTo, responseWord_ok_checksumPayload, registerAfter]

/-- Settles O27: the word decodes back to the command because it is the command's encoding. -/
theorem verifyLoadsAndCompares : Obligations.VerifyLoadsAndCompares := by
  intro b0 b1 e s
  have word : encode (.verify b0 b1 e) =
      0x11000000 ||| (b0.zeroExtend 32 <<< 16) ||| (b1.zeroExtend 32 <<< 8) ||| e.zeroExtend 32 :=
    wordOf_eq_or 0x11 b0 b1 e
  refine ⟨word, ?_, ?_⟩
  · rw [← word, decode_encode]
  · rw [exec_eq, responseTo, verify, responseWord_ok_boolPayload_beq, registerAfter]

/-- Settles O7. Both worked examples of `verify` turn on the checksum 0xF4 of 0x01, 0x00. -/
theorem crcFunctionsAsRuled : Obligations.CrcFunctionsAsRuled := by
  have first : crcByte 0x00 0x01 = 0x31 := by decide
  have second : crcByte 0x31 0x00 = 0xF4 := by decide
  have checksum : crc8 0x01 0x00 = 0xF4 := (congrArg (crcByte · 0x00) first).trans second
  refine ⟨fun c => ⟨rfl, crcBit_toNat c⟩, by decide, by decide, by decide, fun _ _ => rfl, first, second,
    fun _ _ => rfl, crc8_zero_zero, checksum, fun _ _ _ => beq_iff_eq, beq_iff_eq.mpr checksum, ?_⟩
  rw [verify, checksum]
  rfl

/-- Settles O22. -/
theorem crcInitClearsRegister : Obligations.CrcInitClearsRegister :=
  ⟨rfl, exec_eq .crcInit⟩

/-- Settles O23. -/
theorem crcByteAdvancesRegister : Obligations.CrcByteAdvancesRegister := by
  intro b s
  refine ⟨?_, ?_, by decide, crcByte_self 0x00, crcByte_self s.c⟩
  · simp [encode, wordOf_eq_or]
  · rw [exec_eq, responseTo, responseWord_ok_checksumPayload, registerAfter]

/-- Settles O24. -/
theorem crcGetReadsRegister : Obligations.CrcGetReadsRegister := by
  refine ⟨rfl, fun s => ?_⟩
  rw [exec_eq, responseTo, responseWord_ok_checksumPayload, registerAfter]

/-- Settles O25. -/
theorem crcCmpComparesRegister : Obligations.CrcCmpComparesRegister := by
  intro e s
  refine ⟨?_, ?_⟩
  · simp [encode, wordOf_eq_or]
  · rw [exec_eq, responseTo, responseWord_ok_boolPayload_beq, registerAfter]

end Sys2Proof.Machine
end

section
/-! SUPPORT. The division of R4 against floor division, and the formulas of R46 and R47 with their constants folded and
on the numbers of a masked raw reading (spec/41_convert.md R43 to R47). -/
namespace Sys2Proof.Machine

/-- Truncation is above floor division only for a negative dividend that the divisor does not divide (R4). -/
theorem tdiv_eq_ediv_add (a : Int) {b : Int} (hb : 0 < b) :
    tdiv a b = a / b + if 0 ≤ a ∨ b ∣ a then 0 else 1 := by
  rw [tdiv_eq_tdiv, Int.tdiv_eq_ediv, Int.sign_eq_one_of_pos hb]

theorem tdiv_mono {a a' b : Int} (hb : 0 < b) (h : a ≤ a') : tdiv a b ≤ tdiv a' b := by
  rw [tdiv_eq_tdiv, tdiv_eq_tdiv]
  exact Int.tdiv_le_tdiv hb h

/-- One divisor more in the dividend is at most one more in the quotient: exactly one more in the floor, and the
dividend that is larger is not corrected where the smaller one is not. -/
theorem tdiv_add_self_le (a : Int) {b : Int} (hb : 0 < b) : tdiv (a + b) b ≤ tdiv a b + 1 := by
  rw [tdiv_eq_ediv_add _ hb, tdiv_eq_ediv_add _ hb, Int.add_ediv_of_dvd_right (dvd_refl b), Int.ediv_self hb.ne']
  simp only [dvd_add_self_right]
  by_cases h : 0 ≤ a ∨ b ∣ a
  · rw [if_pos h, if_pos (h.imp_left fun nonneg => add_nonneg nonneg hb.le)]
    omega
  · rw [if_neg h]
    split <;> omega

/-- The rounding term of R46 folded into its constant. -/
theorem convT_eq (m : Half) : convT m = (4393 * (m.toNat : Int) - 76750848).tdiv 16384 := by
  rw [convT, tdiv_eq_tdiv]
  congr 1
  simp only [Config.tOffset, Config.tSlope, Config.tRound]
  ring

/-- The rounding term of R47 folded into its constant. -/
theorem convH_eq (m : Half) : convH m = (125 * (m.toNat : Int) - 376832).tdiv 32768 := by
  rw [convH, tdiv_eq_tdiv]
  congr 1
  simp only [Config.hOffset, Config.hSlope, Config.hRound]
  ring

theorem maskRaw_toNat_cast (raw : Half) : ((maskRaw raw).toNat : Int) = 4 * ((raw.toNat : Int) / 4) := by
  rw [maskRaw_toNat]
  push_cast
  rfl

theorem maskRaw_maskRaw (raw : Half) : maskRaw (maskRaw raw) = maskRaw raw := by
  rw [maskRaw, maskRaw, BitVec.and_assoc, BitVec.and_self]

/-- After masking the tag would always be 0b00 (R44). -/
theorem tagOf_maskRaw (raw : Half) : tagOf (maskRaw raw) = 0b00#2 := by
  apply BitVec.eq_of_toNat_eq
  rw [tagOf_toNat, maskRaw_toNat]
  exact Nat.mul_mod_right 4 _

/-- A raw reading is what the mask keeps and the tag that it clears (R43, R44). -/
theorem maskRaw_toNat_add_tagOf_toNat (raw : Half) : (maskRaw raw).toNat + (tagOf raw).toNat = raw.toNat := by
  rw [maskRaw_toNat, tagOf_toNat]
  exact Nat.div_add_mod raw.toNat 4

theorem tagMatches_iff (k : Kind) (raw : Half) : tagMatches k raw = true ↔ tagOf raw = expectedTag k :=
  beq_iff_eq

/-- A tag with bit 0 set is the expected tag of neither kind (R45). -/
theorem tagMatches_of_odd_tag (k : Kind) {raw : Half} (h : tagOf raw = 0b01#2 ∨ tagOf raw = 0b11#2) :
    tagMatches k raw = false := by
  refine Bool.eq_false_iff.mpr fun hmatch => ?_
  rw [(tagMatches_iff k raw).mp hmatch] at h
  cases k <;> exact absurd h (by decide)

/-- A raw reading cut into the fields D0 and D1 is the raw reading shifted over the X field (R23). -/
theorem wordOf_raw_eq_or (op : Byte) (raw : Half) :
    wordOf op (raw.extractLsb' 8 8) (raw.extractLsb' 0 8) 0 =
      (op.zeroExtend 32 <<< 24) ||| (raw.zeroExtend 32 <<< 8) := by
  conv_rhs => rw [← half_eq_append raw]
  rw [wordOf_eq_or, BitVec.zeroExtend, BitVec.setWidth_append_eq_shiftLeft_setWidth_or, BitVec.shiftLeft_or_distrib,
    ← BitVec.shiftLeft_add, ← BitVec.or_assoc]
  exact BitVec.or_zero

/-- Readings that agree in bits 15:4 have humidity numerators at most one divisor apart (R51). -/
theorem convH_maskRaw_le_add_one {m m' : Half} (h : m.toNat / 16 = m'.toNat / 16) :
    convH (maskRaw m) ≤ convH (maskRaw m') + 1 := by
  have close : (maskRaw m).toNat ≤ (maskRaw m').toNat + 12 := by
    rw [maskRaw_toNat, maskRaw_toNat]
    omega
  have numerators : 125 * ((maskRaw m).toNat : Int) - 376832 ≤ 125 * ((maskRaw m').toNat : Int) - 376832 + 32768 := by
    omega
  rw [convH_eq, convH_eq, ← tdiv_eq_tdiv, ← tdiv_eq_tdiv]
  exact (tdiv_mono (by decide) numerators).trans (tdiv_add_self_le _ (by decide))

end Sys2Proof.Machine
end

section
/-! The statements of spec/41_convert.md on the mask, the tag, the formulas and the conversion commands, assembled from
the lemmas above. -/
namespace Sys2Proof.Machine

/-- Settles O16. -/
theorem maskAndTag : Obligations.MaskAndTag := by
  refine ⟨fun raw => ⟨rfl, ?_, ?_, maskRaw_maskRaw raw, rfl, tagOf_maskRaw raw,
    (maskRaw_toNat_add_tagOf_toNat raw).symm⟩, by decide, by decide, by decide, by decide, by decide, rfl, rfl,
    tagMatches_iff, fun k _ => tagMatches_of_odd_tag k⟩
  · have := raw.isLt
    rw [maskRaw_toNat]
    omega
  · rw [maskRaw_toNat]
    exact Nat.mul_mod_right 4 _

/-- Settles O17. -/
theorem conversionFormulas : Obligations.ConversionFormulas := by
  refine ⟨fun a b hb => ⟨fun nonneg => ?_, fun _ divides => ?_, fun neg indivisible => ?_⟩,
    fun m => ⟨rfl, convT_eq m, rfl, convH_eq m, rfl, rfl⟩, by decide, by decide, by decide, by decide, by decide,
    by decide, by decide⟩
  · rw [tdiv_eq_ediv_add a hb, if_pos (.inl nonneg), add_zero]
  · rw [tdiv_eq_ediv_add a hb, if_pos (.inr divides), add_zero]
  · rw [tdiv_eq_ediv_add a hb, if_neg (not_or.mpr ⟨neg.not_ge, indivisible⟩)]

/-- Settles O28. -/
theorem cvtTConverts : Obligations.CvtTConverts := by
  refine ⟨fun raw s => ⟨?_, ?_⟩, fun d0 d1 x hx => decode_formatD_nonzero_x (by decide) hx d0 d1⟩
  · exact wordOf_raw_eq_or 0x20 raw
  · rw [exec_eq, responseTo, responseWord_ok, conv, convT, tdiv_eq_tdiv, maskRaw_toNat_cast]
    rfl

/-- Settles O29. -/
theorem cvtHConverts : Obligations.CvtHConverts := by
  refine ⟨fun raw s => ⟨?_, ?_⟩, fun d0 d1 x hx => decode_formatD_nonzero_x (by decide) hx d0 d1,
    fun _ _ => convH_maskRaw_le_add_one⟩
  · exact wordOf_raw_eq_or 0x21 raw
  · rw [exec_eq, responseTo, responseWord_ok, conv, convH, tdiv_eq_tdiv, maskRaw_toNat_cast]
    rfl

end Sys2Proof.Machine
end

section
/-! SUPPORT. The ranges of the two conversion results, from the ends of the masked raw reading by monotonicity, so that
a payload reads back as the result (spec/41_convert.md R49), and the masked raw reading of two data bytes (R16). -/
namespace Sys2Proof.Machine

theorem maskRaw_toNat_le (raw : Half) : (maskRaw raw).toNat ≤ 65532 := by
  have := raw.isLt
  rw [maskRaw_toNat]
  omega

theorem convT_maskRaw_range (raw : Half) : -4684 ≤ convT (maskRaw raw) ∧ convT (maskRaw raw) ≤ 12886 := by
  have := maskRaw_toNat_le raw
  rw [convT_eq, ← tdiv_eq_tdiv]
  constructor
  · calc (-4684 : Int) = tdiv (-76750848) 16384 := by decide
      _ ≤ _ := tdiv_mono (by decide) (by omega)
  · calc _ ≤ tdiv 211131228 16384 := tdiv_mono (by decide) (by omega)
      _ = 12886 := by decide

theorem convH_maskRaw_range (raw : Half) : -11 ≤ convH (maskRaw raw) ∧ convH (maskRaw raw) ≤ 238 := by
  have := maskRaw_toNat_le raw
  rw [convH_eq, ← tdiv_eq_tdiv]
  constructor
  · calc (-11 : Int) = tdiv (-376832) 32768 := by decide
      _ ≤ _ := tdiv_mono (by decide) (by omega)
  · calc _ ≤ tdiv 7814668 32768 := tdiv_mono (by decide) (by omega)
      _ = 238 := by decide

theorem int16_tc16_convT_maskRaw (raw : Half) : int16 (tc16 (convT (maskRaw raw))) = convT (maskRaw raw) := by
  obtain ⟨lo, hi⟩ := convT_maskRaw_range raw
  exact int16_tc16 _ (by omega) (by omega)

theorem int16_tc16_convH_maskRaw (raw : Half) : int16 (tc16 (convH (maskRaw raw))) = convH (maskRaw raw) := by
  obtain ⟨lo, hi⟩ := convH_maskRaw_range raw
  exact int16_tc16 _ (by omega) (by omega)

/-- The mask takes off b0 : b1 the remainder of b1 by 4, which is the reply's tag (R43, R44). -/
theorem maskRaw_rawOf_toNat_cast (b0 b1 : Byte) :
    ((maskRaw (rawOf b0 b1)).toNat : Int) = 256 * (b0.toNat : Int) + (b1.toNat : Int) - (b1.toNat % 4 : Nat) := by
  rw [maskRaw_toNat, rawOf_toNat]
  omega

end Sys2Proof.Machine
end

section
/-! SUPPORT. The three outcomes of `check_reply`, each from its own condition (spec/42_reply.md R53), and the response
word that a reply command gives to them (R54, R55). -/
namespace Sys2Proof.Machine

variable {k : Kind} {b0 b1 chk : Byte}

theorem verify_eq_true_iff : verify b0 b1 chk = true ↔ crc8 b0 b1 = chk :=
  beq_iff_eq

theorem verify_eq_false_iff : verify b0 b1 chk = false ↔ crc8 b0 b1 ≠ chk :=
  beq_eq_false_iff_ne

/-- The tag of a reply is the two low bits of its second byte (R44). -/
theorem tagOf_rawOf (b0 b1 : Byte) : tagOf (rawOf b0 b1) = b1.extractLsb' 0 2 := by
  apply BitVec.eq_of_toNat_eq
  rw [tagOf_toNat, rawOf_toNat, BitVec.extractLsb'_toNat, Nat.shiftRight_zero]
  omega

/-- A wrong checksum is reported whatever the tag. -/
theorem checkReply_of_crc8_ne (hsum : crc8 b0 b1 ≠ chk) : checkReply k b0 b1 chk = .checksumMismatch := by
  rw [checkReply, verify_eq_false_iff.mpr hsum]
  rfl

theorem checkReply_of_tag_ne (hsum : crc8 b0 b1 = chk) (htag : tagOf (rawOf b0 b1) ≠ expectedTag k) :
    checkReply k b0 b1 chk = .unexpectedMeasurementKind := by
  rw [checkReply, verify_eq_true_iff.mpr hsum, Bool.eq_false_iff.mpr (mt (tagMatches_iff k _).mp htag)]
  rfl

theorem checkReply_of_good (hsum : crc8 b0 b1 = chk) (htag : tagOf (rawOf b0 b1) = expectedTag k) :
    checkReply k b0 b1 chk = .ok (conv k (maskRaw (rawOf b0 b1))) := by
  rw [checkReply, verify_eq_true_iff.mpr hsum, (tagMatches_iff k _).mpr htag]
  rfl

/-- The response to a reply, as the first of the two failed tests or the value decides it (R53, R61). -/
theorem replyResponse_checkReply (k : Kind) (b0 b1 chk : Byte) :
    replyResponse (checkReply k b0 b1 chk) =
      if crc8 b0 b1 ≠ chk then 0x10000000 else if b1.extractLsb' 0 2 ≠ expectedTag k then 0x20000000
      else (tc16 (conv k (maskRaw (rawOf b0 b1)))).zeroExtend 32 := by
  rw [← tagOf_rawOf b0 b1]
  by_cases hsum : crc8 b0 b1 = chk
  · rw [if_neg (not_not.mpr hsum)]
    by_cases htag : tagOf (rawOf b0 b1) = expectedTag k
    · rw [if_neg (not_not.mpr htag), checkReply_of_good hsum htag, replyResponse, responseWord_ok]
    · rw [if_pos htag, checkReply_of_tag_ne hsum htag]
      rfl
  · rw [if_pos hsum, checkReply_of_crc8_ne hsum]
    rfl

/-- A reply that passes both tests, its tag read as a number, is answered with its value alone. -/
theorem replyResponse_checkReply_of_good (hsum : crc8 b0 b1 = chk) (htag : b1.toNat % 4 = (expectedTag k).toNat) :
    replyResponse (checkReply k b0 b1 chk) = (tc16 (conv k (maskRaw (rawOf b0 b1)))).zeroExtend 32 := by
  have tag : tagOf (rawOf b0 b1) = expectedTag k := (tagMatches_iff k _).mp ((tagMatches_rawOf k b0 b1).mpr htag)
  rw [checkReply_of_good hsum tag, replyResponse, responseWord_ok]

end Sys2Proof.Machine
end

section
/-! The statements of spec/42_reply.md on `check_reply` and the reply commands, assembled from the lemmas above. -/
namespace Sys2Proof.Machine

/-- Settles O30. The worked examples follow from the three clauses and two checksums. -/
theorem checkReplyOrder : Obligations.CheckReplyOrder := by
  have firstT : crcByte 0x00 0x40 = 0x3D := by decide
  have sumT : crc8 0x40 0x00 = 0x89 := (congrArg (crcByte · 0x00) firstT).trans (by decide)
  have firstH : crcByte 0x00 0x80 = 0x7A := by decide
  have sumH : crc8 0x80 0x02 = 0x41 := (congrArg (crcByte · 0x02) firstH).trans (by decide)
  have valueT : conv .temperature (maskRaw (rawOf 0x40 0x00)) = -291 := by decide
  have valueH : conv .humidity (maskRaw (rawOf 0x80 0x02)) = 113 := by decide
  refine ⟨fun k b0 b1 chk => ⟨fun hv => ?_, fun hv htag => ?_, fun hv htag => ?_⟩, ?_, ?_, ?_, ?_, ?_⟩
  · exact checkReply_of_crc8_ne (verify_eq_false_iff.mp hv)
  · exact checkReply_of_tag_ne (verify_eq_true_iff.mp hv) htag
  · exact checkReply_of_good (verify_eq_true_iff.mp hv) htag
  · rw [checkReply_of_good sumT (by decide), valueT]
  · rw [checkReply_of_good sumH (by decide), valueH]
  · exact checkReply_of_tag_ne sumH (by decide)
  · exact checkReply_of_crc8_ne (by rw [sumT]; decide)
  · exact checkReply_of_crc8_ne (by rw [sumH]; decide)

/-- Settles O31: a temperature reply's tag is zero, so the mask leaves b0 : b1 as it is. -/
theorem rplyTAcceptsGoodReply : Obligations.RplyTAcceptsGoodReply := by
  intro b0 b1 chk s hsum htag
  constructor
  · rw [exec_eq, responseTo, replyResponse_checkReply_of_good (k := .temperature) hsum htag, registerAfter, hsum]
    rfl
  · rw [int16_tc16_convT_maskRaw, convT_eq, ← rawOf, maskRaw_rawOf_toNat_cast, htag, Nat.cast_zero, sub_zero]

/-- Settles O32: a humidity reply's tag is 2, which the mask takes off b0 : b1. -/
theorem rplyHAcceptsGoodReply : Obligations.RplyHAcceptsGoodReply := by
  intro b0 b1 chk s hsum htag
  constructor
  · rw [exec_eq, responseTo, replyResponse_checkReply_of_good (k := .humidity) hsum htag, registerAfter, hsum]
    rfl
  · rw [int16_tc16_convH_maskRaw, convH_eq, ← rawOf, maskRaw_rawOf_toNat_cast, htag, Nat.cast_ofNat]

/-- Settles O33: the word decodes back to the command because it is the command's encoding. -/
theorem rplyTOutcomes : Obligations.RplyTOutcomes := by
  intro b0 b1 chk s
  have word : encode (.rplyT b0 b1 chk) =
      0x30000000 ||| (b0.zeroExtend 32 <<< 16) ||| (b1.zeroExtend 32 <<< 8) ||| chk.zeroExtend 32 :=
    wordOf_eq_or 0x30 b0 b1 chk
  refine ⟨word, ?_, ?_⟩
  · rw [← word, decode_encode]
  · rw [exec_eq, responseTo, replyResponse_checkReply, registerAfter]
    rfl

/-- Settles O34, as for RPLY.T with the humidity tag and formula. -/
theorem rplyHOutcomes : Obligations.RplyHOutcomes := by
  intro b0 b1 chk s
  have word : encode (.rplyH b0 b1 chk) =
      0x31000000 ||| (b0.zeroExtend 32 <<< 16) ||| (b1.zeroExtend 32 <<< 8) ||| chk.zeroExtend 32 :=
    wordOf_eq_or 0x31 b0 b1 chk
  refine ⟨word, ?_, ?_⟩
  · rw [← word, decode_encode]
  · rw [exec_eq, responseTo, replyResponse_checkReply, registerAfter]
    rfl

end Sys2Proof.Machine
end

section
/-! SUPPORT. The two errors of a reply, each from its own condition, for both kinds (spec/60_exceptions.md R58, R59). -/
namespace Sys2Proof.Machine

variable {b0 b1 chk : Byte}

/-- A reply with a wrong checksum: the tag and the kind play no part in the answer. -/
theorem State.reply_of_crc8_ne (s : State) (k : Kind) (hsum : crc8 b0 b1 ≠ chk) :
    s.reply k b0 b1 chk = { s with c := crc8 b0 b1, received := s.received ++ [0x10000000] } := by
  rw [State.reply_eq, checkReply_of_crc8_ne hsum]
  rfl

/-- A reply with a right checksum and another tag than its kind's. -/
theorem State.reply_of_tag_ne (s : State) {k : Kind} (hsum : crc8 b0 b1 = chk)
    (htag : tagOf (rawOf b0 b1) ≠ expectedTag k) :
    s.reply k b0 b1 chk = { s with c := chk, received := s.received ++ [0x20000000] } := by
  rw [State.reply_eq, checkReply_of_tag_ne hsum htag, hsum]
  rfl

end Sys2Proof.Machine
end

section
/-! SUPPORT. A word that no row of the opcode map matches is refused by the decoder, and the step answers it with
ILLEGAL (spec/30_encoding.md R26; spec/60_exceptions.md R60). -/
namespace Sys2Proof.Machine

theorem decode_of_no_row {w : Word} (h : ∀ row ∈ opcodeTable, w &&& row.format.mask ≠ row.pattern) :
    decode w = .error (illegalCause w) := by
  have none_matches : opcodeTable.find? (rowMatches w) = none :=
    List.find?_eq_none.mpr fun row hrow hmatch => h row hrow (beq_iff_eq.mp hmatch)
  rw [decode, none_matches]

/-- The step at an accepted word that the decoder refuses, whatever the cause. -/
theorem step_illegal {s : State} {w : Word} {rest : List HostEvent} {cause : Illegal} (hr : s.inReset = false)
    (hs : s.script = .present w :: rest) (hd : decode w = .error cause) :
    step s = .next { s with script := rest, received := s.received ++ [0xF0000000] } := by
  rw [step_present hr hs, runWord, hd]
  rfl

end Sys2Proof.Machine
end

section
/-! SUPPORT. Every step and every run goes on, and what it does is settled without the responses the host already
holds: it only adds to them (spec/60_exceptions.md R63; spec/10_state.md R11). -/
namespace Sys2Proof.Machine

/-- A step that answers nothing adds the empty list to every past of the host. -/
theorem appends_of_silent_step {s : State} {c : Byte} {r : Bool} {script : List HostEvent}
    (h : ∀ past, step { s with received := past } = .next ⟨c, r, script, past⟩) :
    ∃ t : State, ∀ past, step { s with received := past } = .next { t with received := past ++ t.received } :=
  ⟨⟨c, r, script, []⟩, fun past => by rw [h, List.append_nil]⟩

/-- One step, for all pasts of the host at once; the responses of `t` are the new ones. -/
theorem step_forgets_received (s : State) :
    ∃ t : State, ∀ past, step { s with received := past } = .next { t with received := past ++ t.received } := by
  obtain ⟨c, inReset, script, _⟩ := s
  cases script with
  | nil => exact appends_of_silent_step fun _ => step_nil rfl
  | cons e rest =>
    cases e with
    | present w =>
      cases inReset with
      | true => exact appends_of_silent_step fun _ => step_present_inReset rfl rfl
      | false =>
        exact ⟨⟨registerAfterWord w c, false, rest, [responseToWord w c]⟩, fun _ => step_present_eq rfl rfl⟩
    | presentThenReset w => exact appends_of_silent_step fun _ => step_presentThenReset rfl
    | assertReset => exact appends_of_silent_step fun _ => step_assertReset rfl
    | releaseReset =>
      cases inReset with
      | true => exact appends_of_silent_step fun _ => step_releaseReset rfl rfl
      | false => exact appends_of_silent_step fun _ => step_releaseReset_outOfReset rfl rfl

/-- A run of any length, for all pasts of the host at once: the new responses of its steps, one after another. -/
theorem runSteps_forgets_received (k : Nat) (s : State) :
    ∃ t : State, ∀ past,
      runSteps k { s with received := past } = .next { t with received := past ++ t.received } := by
  induction k generalizing s with
  | zero => exact ⟨{ s with received := [] }, fun past => by rw [runSteps_zero, List.append_nil]⟩
  | succ k ih =>
    obtain ⟨t, first⟩ := step_forgets_received s
    obtain ⟨u, others⟩ := ih t
    refine ⟨{ u with received := t.received ++ u.received }, fun past => ?_⟩
    rw [runSteps_succ k (first past), others, List.append_assoc]

end Sys2Proof.Machine
end

section
/-! The statements of spec/60_exceptions.md, assembled from the lemmas above. -/
namespace Sys2Proof.Machine

/-- Settles O35. -/
theorem checksumMismatchReported : Obligations.ChecksumMismatchReported :=
  fun _ _ _ s hsum =>
    ⟨congrArg Host.Outcome.next (s.reply_of_crc8_ne .temperature hsum),
      congrArg Host.Outcome.next (s.reply_of_crc8_ne .humidity hsum)⟩

/-- Settles O36. -/
theorem unexpectedKindReported : Obligations.UnexpectedKindReported :=
  fun _ _ _ s hsum =>
    ⟨fun htag => congrArg Host.Outcome.next (s.reply_of_tag_ne (k := .temperature) hsum htag),
      fun htag => congrArg Host.Outcome.next (s.reply_of_tag_ne (k := .humidity) hsum htag)⟩

/-- Settles O40: the ten hypotheses are the mask tests of the opcode map's rows, in the table's order. -/
theorem illegalWordAnswered : Obligations.IllegalWordAnswered := by
  intro s w rest hr hs crcInit crcByte crcGet crcCmp crc8 verify cvtT cvtH rplyT rplyH
  refine step_illegal hr hs (decode_of_no_row ?_)
  simp only [opcodeTable, List.forall_mem_cons]
  exact ⟨crcInit, crcByte, crcGet, crcCmp, crc8, verify, cvtT, cvtH, rplyT, rplyH, nofun⟩

/-- Settles O46: a machine's own responses are one of the pasts with which its steps and runs go on. -/
theorem machineNeverStops : Obligations.MachineNeverStops := by
  refine ⟨fun s => ?_, fun k s => ?_⟩
  · obtain ⟨t, ht⟩ := step_forgets_received s
    exact ⟨_, ht s.received⟩
  · obtain ⟨t, ht⟩ := runSteps_forgets_received k s
    exact ⟨_, ht s.received⟩

/-- Settles O54: the machine's own responses and `past` are two pasts of one run. -/
theorem noMemoryButRegister : Obligations.NoMemoryButRegister := by
  intro k s past
  obtain ⟨t, ht⟩ := runSteps_forgets_received k s
  exact ⟨t.c, t.inReset, t.script, t.received, ht s.received, ht past⟩

end Sys2Proof.Machine
end

section
/-! SUPPORT. Runs through a reset, to the state just after the release of the reset input
(spec/70_reset_and_hazards.md R68): words presented in reset are used up, and a reset that is applied and then released
leaves nothing of what was before it. -/
namespace Sys2Proof.Machine

/-- Words presented in reset go by without effect, before any later events. -/
theorem runSteps_commandScript_inReset (ws : List Word) (k : Nat) {s : State} {rest : List HostEvent}
    (hr : s.inReset = true) (hs : s.script = commandScript ws ++ rest) :
    runSteps (ws.length + k) s = runSteps k { s with script := rest } := by
  induction ws generalizing s with
  | nil =>
    obtain rfl : s.script = rest := hs
    rw [List.length_nil, Nat.zero_add]
  | cons w ws ih =>
    have first := step_present_inReset (rest := commandScript ws ++ rest) hr hs
    rw [List.length_cons, Nat.add_right_comm, runSteps_succ _ first]
    exact ih hr rfl

/-- The release after a step that has applied reset, whatever event applied it. -/
theorem runSteps_release_of_reset (k : Nat) {s : State} {rest : List HostEvent}
    (applied : step s = .next { s with c := 0x00, inReset := true, script := .releaseReset :: rest }) :
    runSteps (k + 2) s = runSteps k { s with c := 0x00, inReset := false, script := rest } := by
  rw [runSteps_succ _ applied, runSteps_succ _ (step_releaseReset rfl rfl)]

end Sys2Proof.Machine
end

section
/-! SUPPORT. The register along a stream whose only writers are CRC.BYTE commands (spec/70_reset_and_hazards.md R70). -/
namespace Sys2Proof.Machine

/-- Of the writers of R7 only CRC.BYTE has opcode 0x02, and its data byte is the X field (R36). -/
theorem registerAfterWord_of_crcByte_opcode {w : Word} (hw : writesC w = true) (hop : opField w = 0x02) (c : Byte) :
    registerAfterWord w c = crcByte c (xField w) := by
  unfold writesC at hw
  cases hd : decode w with
  | error cause => rw [hd] at hw; cases hw
  | ok i =>
    obtain rfl := encode_of_decode hd
    rw [registerAfterWord_encode]
    cases i with
    | crcByte b => simp [encode, registerAfter]
    | crcInit | crcGet | crcCmp | crc8 | verify | cvtT | cvtH | rplyT | rplyH => simp [encode] at hop

/-- The fold of the command rules moves the register by the CRC.BYTE commands alone: the other words are no writers. -/
theorem transcript_fst_of_crcByte_writers {ws : List Word} (h : ∀ w ∈ ws, writesC w = true → opField w = 0x02)
    (c : Byte) : (transcript c ws).1 = ((ws.filter writesC).map xField).foldl crcByte c := by
  induction ws generalizing c with
  | nil => rfl
  | cons w ws ih =>
    obtain ⟨head, tail⟩ := List.forall_mem_cons.mp h
    rw [transcript, transact_eq, ih tail]
    cases hw : writesC w with
    | true =>
      rw [registerAfterWord_of_crcByte_opcode hw (head hw), List.filter_cons_of_pos hw, List.map_cons, List.foldl_cons]
    | false => rw [registerAfterWord_of_not_writesC hw, List.filter_cons_of_neg (Bool.eq_false_iff.mp hw)]

end Sys2Proof.Machine
end

section
/-! The statements of spec/70_reset_and_hazards.md, assembled from the lemmas above. -/
namespace Sys2Proof.Machine

/-- Settles O43: only the release is left once the words have gone by. -/
theorem nothingAnsweredInReset : Obligations.NothingAnsweredInReset := by
  intro ws s rest hr hs
  rw [runSteps_commandScript_inReset ws 1 hr hs]
  exact runSteps_succ 0 (step_releaseReset hr rfl)

/-- Settles O58: the run is the fold of the command rules. -/
theorem streamSurvivesHarmlessCommands : Obligations.StreamSurvivesHarmlessCommands :=
  fun ws s rest hr hs hwriters =>
    ⟨_, runIsFoldOfTransactions ws s rest hr hs, rfl, transcript_fst_of_crcByte_writers hwriters s.c⟩

/-- Settles O59: the release leaves `C` at the value with which a checksum starts (R69). -/
theorem streamingAfterReset : Obligations.StreamingAfterReset := by
  intro b0 b1 s hs
  refine ⟨(crcByte Config.crcInit b0).zeroExtend 32, ?_⟩
  rw [runSteps_release_of_reset 3 (step_assertReset hs)]
  refine (runIsFoldOfTransactions [encode (.crcByte b0), encode (.crcByte b1), encode .crcGet] _ [] rfl
    (List.append_nil _).symm).trans ?_
  simp only [transcript, transact_eq, registerAfterWord_encode, responseToWord_encode, registerAfter, responseTo,
    responseWord_ok_checksumPayload]
  rfl

/-- Settles O44: both scripts begin with an event that applies reset and does nothing else. -/
theorem commandAbandonedByReset : Obligations.CommandAbandonedByReset := by
  rintro s w rest (hs | hs)
  · exact runSteps_release_of_reset 0 (step_presentThenReset hs)
  · exact runSteps_release_of_reset 0 (step_assertReset hs)

end Sys2Proof.Machine
end

section
/-! SUPPORT. The CRC functions are linear over XOR, the register and the data byte enter only through their XOR, and
`crc8` is one-to-one in each of its bytes (spec/40_crc.md R41 laws 1 to 3). -/
namespace Sys2Proof.Machine

/-- The bit tested is the XOR of the two bits tested, and two polynomials XORed in cancel. -/
theorem crcBit_xor (a b : Byte) : crcBit (a ^^^ b) = crcBit a ^^^ crcBit b := by
  unfold crcBit
  rw [BitVec.getLsbD_xor, BitVec.shiftLeft_xor_distrib]
  cases a.getLsbD 7 <;> cases b.getLsbD 7
  case false.false => rfl
  case false.true => exact BitVec.xor_assoc _ _ _
  case true.false => simp [BitVec.xor_assoc, BitVec.xor_comm (b <<< 1)]
  case true.true => simp [BitVec.xor_assoc, BitVec.xor_comm (b <<< 1)]

theorem crcBits_xor (n : Nat) (a b : Byte) : crcBits n (a ^^^ b) = crcBits n a ^^^ crcBits n b := by
  induction n generalizing a b with
  | zero => rfl
  | succ n ih => rw [crcBits, crcBit_xor, ih, crcBits, crcBits]

theorem crcByte_xor (c c' b b' : Byte) : crcByte (c ^^^ c') (b ^^^ b') = crcByte c b ^^^ crcByte c' b' := by
  rw [crcByte, crcByte, crcByte, ← crcBits_xor]
  congr 1
  ac_rfl

theorem crcByte_comm (c b : Byte) : crcByte c b = crcByte b c := by
  rw [crcByte, BitVec.xor_comm, crcByte]

theorem crcByte_eq_zero_iff {c b : Byte} : crcByte c b = 0x00 ↔ b = c := by
  rw [← crcByte_self c]
  exact (crcByte_bijective c).injective.eq_iff

theorem crc8_bijective_right (b0 : Byte) : Function.Bijective (crc8 b0) := crcByte_bijective _

theorem crc8_injective_left (b1 : Byte) : Function.Injective fun b0 => crc8 b0 b1 := by
  intro a b h
  have first : crcByte Config.crcInit a = crcByte Config.crcInit b := by
    refine (crcByte_bijective b1).injective ?_
    rw [crcByte_comm b1, crcByte_comm b1]
    exact h
  exact (crcByte_bijective _).injective first

end Sys2Proof.Machine
end

section
/-! SUPPORT. The CRC in a register of unbounded width: what is kept above bit 7 never reaches the low 8 bits
(spec/40_crc.md R41 law 6). -/
namespace Sys2Proof.Machine

theorem ofNat_wideCrcBit (r : Nat) : BitVec.ofNat 8 (wideCrcBit r) = crcBit (BitVec.ofNat 8 r) := by
  have top : (BitVec.ofNat 8 r).getLsbD 7 = r.testBit 7 := BitVec.getLsbD_ofNat 8 r 7
  have shifted : BitVec.ofNat 8 (r <<< 1) = BitVec.ofNat 8 r <<< 1 := by
    apply BitVec.eq_of_toNat_eq
    simp [Nat.shiftLeft_eq, Nat.mod_mul_mod]
  unfold wideCrcBit crcBit
  rw [top]
  split
  · rw [BitVec.ofNat_xor, shifted]
    rfl
  · exact shifted

theorem ofNat_wideCrcByte (c b : Nat) :
    BitVec.ofNat 8 (wideCrcByte c b) = crcByte (BitVec.ofNat 8 c) (BitVec.ofNat 8 b) := by
  simp only [wideCrcByte, ofNat_wideCrcBit, BitVec.ofNat_xor]
  rfl

theorem wideCrc8_mod (b0 b1 : Byte) :
    wideCrcByte (wideCrcByte 0 b0.toNat) b1.toNat % 256 = (crc8 b0 b1).toNat := by
  have low : BitVec.ofNat 8 (wideCrcByte (wideCrcByte 0 b0.toNat) b1.toNat) = crc8 b0 b1 := by
    rw [ofNat_wideCrcByte, ofNat_wideCrcByte, BitVec.ofNat_toNat, BitVec.ofNat_toNat, BitVec.setWidth_eq,
      BitVec.setWidth_eq]
    rfl
  rw [← low]
  exact (BitVec.toNat_ofNat _ 8).symm

end Sys2Proof.Machine
end

section
/-! SUPPORT. A bit vector as a polynomial over GF(2), and its class modulo the generator of the CRC: one iteration
multiplies the class by x, and a class holds at most one byte (spec/40_crc.md R41 law 4). -/
namespace Sys2Proof.Machine

open Polynomial

/-- The bits of a vector as the coefficients of a polynomial over GF(2). -/
noncomputable def polyOf {w : Nat} (v : BitVec w) : (ZMod 2)[X] :=
  Finset.sum (Finset.range w) fun k => if v.getLsbD k = true then X ^ k else 0

/-- G(x) = x^8 + x^5 + x^4 + 1, the 9-bit pattern 0x131 (R31). -/
noncomputable def crcGenerator : (ZMod 2)[X] := X ^ 8 + X ^ 5 + X ^ 4 + 1

theorem coeff_polyOf {w : Nat} (v : BitVec w) (k : Nat) : (polyOf v).coeff k = if v.getLsbD k = true then 1 else 0 := by
  have term (i : Nat) : (if v.getLsbD i = true then X ^ i else 0 : (ZMod 2)[X]).coeff k =
      if k = i then if v.getLsbD k = true then 1 else 0 else 0 := by
    by_cases h : k = i
    · subst h
      split <;> simp
    · split <;> simp [coeff_X_pow, h]
  rw [polyOf, finsetSum_coeff, Finset.sum_congr rfl fun i _ => term i, Finset.sum_ite_eq]
  by_cases hk : k < w
  · rw [if_pos (Finset.mem_range.mpr hk)]
  · rw [if_neg (mt Finset.mem_range.mp hk), BitVec.getLsbD_of_ge v k (Nat.le_of_not_lt hk)]
    rfl

theorem degree_polyOf_lt {w : Nat} (v : BitVec w) : (polyOf v).degree < w := by
  refine (degree_lt_iff_coeff_zero _ _).mpr fun k hk => ?_
  rw [coeff_polyOf, BitVec.getLsbD_of_ge v k hk]
  rfl

theorem polyOf_eq_zero_iff {w : Nat} {v : BitVec w} : polyOf v = 0 ↔ v = 0#w := by
  constructor
  · intro h
    apply BitVec.eq_of_getLsbD_eq
    intro k _
    have bit := coeff_polyOf v k
    rw [h] at bit
    simpa using bit
  · rintro rfl
    simp [polyOf]

theorem polyOf_xor {w : Nat} (a b : BitVec w) : polyOf (a ^^^ b) = polyOf a + polyOf b := by
  ext k
  rw [coeff_add, coeff_polyOf, coeff_polyOf, coeff_polyOf, BitVec.getLsbD_xor]
  cases a.getLsbD k <;> cases b.getLsbD k <;> decide

theorem polyOf_append {m n : Nat} (a : BitVec m) (b : BitVec n) : polyOf (a ++ b) = polyOf a * X ^ n + polyOf b := by
  ext k
  rw [coeff_add, coeff_mul_X_pow', coeff_polyOf, coeff_polyOf, coeff_polyOf, BitVec.getLsbD_append]
  by_cases hk : k < n
  · simp [hk, Nat.not_le.mpr hk]
  · simp [hk, Nat.le_of_not_lt hk]

/-- A vector moved up within a vector that is wide enough for all its bits. -/
theorem polyOf_setWidth_shiftLeft {w n k : Nat} (v : BitVec w) (h : w + k ≤ n) :
    polyOf (v.setWidth n <<< k) = polyOf v * X ^ k := by
  ext i
  rw [coeff_mul_X_pow', coeff_polyOf, coeff_polyOf, BitVec.getLsbD_shiftLeft, BitVec.getLsbD_setWidth]
  by_cases hk : i < k
  · simp [hk, Nat.not_le.mpr hk]
  · by_cases hn : i < n
    · simp [hk, hn, Nat.le_of_not_lt hk, show i - k < n by omega]
    · simp [hn, Nat.le_of_not_lt hk, BitVec.getLsbD_of_ge v (i - k) (by omega)]

theorem crcGenerator_eq : crcGenerator = X ^ 8 + polyOf Config.crcPoly8 := by
  have low : polyOf Config.crcPoly8 = 1 + X ^ 4 + X ^ 5 := by
    simp [polyOf, Finset.sum_range_succ, Config.crcPoly8]
  rw [crcGenerator, low]
  ring

theorem degree_crcGenerator : crcGenerator.degree = 8 := by
  rw [crcGenerator_eq]
  exact (degree_add_eq_left_of_degree_lt (by simpa using degree_polyOf_lt Config.crcPoly8)).trans (degree_X_pow 8)

theorem monic_crcGenerator : crcGenerator.Monic := by
  rw [crcGenerator_eq]
  exact monic_X_pow_add (degree_polyOf_lt Config.crcPoly8)

/-- Shifting a byte left multiplies by x and drops the term that reaches x^8. -/
theorem polyOf_shiftLeft_one (c : Byte) :
    polyOf (c <<< 1) = polyOf c * X + if c.getLsbD 7 = true then X ^ 8 else 0 := by
  have dropped (i : Nat) : (if c.getLsbD 7 = true then X ^ 8 else 0 : (ZMod 2)[X]).coeff i =
      if i = 8 ∧ c.getLsbD 7 = true then 1 else 0 := by
    cases c.getLsbD 7 <;> simp [coeff_X_pow]
  ext i
  rw [coeff_add, dropped, ← pow_one X, coeff_mul_X_pow', coeff_polyOf, coeff_polyOf, BitVec.getLsbD_shiftLeft]
  rcases Nat.lt_trichotomy i 8 with h | rfl | h
  · by_cases h0 : i < 1
    · simp [h0, show i ≠ 8 by omega]
    · simp [h, h0, show i ≠ 8 by omega, Nat.le_of_not_lt h0]
  · cases c.getLsbD 7 <;> decide
  · simp [h.not_gt, show i ≠ 8 by omega, BitVec.getLsbD_of_ge c (i - 1) (by omega)]

/-- One iteration multiplies by x and takes off the generator where x^8 is reached. -/
theorem polyOf_crcBit (c : Byte) :
    polyOf (crcBit c) = polyOf c * X + if c.getLsbD 7 = true then crcGenerator else 0 := by
  unfold crcBit
  split
  case isTrue h => rw [polyOf_xor, polyOf_shiftLeft_one, if_pos h, crcGenerator_eq, add_assoc]
  case isFalse h => rw [polyOf_shiftLeft_one, if_neg h]

/-- The class of a vector's polynomial modulo the generator. -/
noncomputable def residueOf {w : Nat} (v : BitVec w) : AdjoinRoot crcGenerator := AdjoinRoot.mk crcGenerator (polyOf v)

/-- The class of x. -/
noncomputable def residueX : AdjoinRoot crcGenerator := AdjoinRoot.root crcGenerator

theorem residueOf_xor {w : Nat} (a b : BitVec w) : residueOf (a ^^^ b) = residueOf a + residueOf b := by
  rw [residueOf, polyOf_xor, map_add, residueOf, residueOf]

theorem residueOf_append {m n : Nat} (a : BitVec m) (b : BitVec n) :
    residueOf (a ++ b) = residueOf a * residueX ^ n + residueOf b := by
  rw [residueOf, polyOf_append, map_add, map_mul, map_pow, AdjoinRoot.mk_X, residueOf, residueOf, residueX]

theorem residueOf_setWidth_shiftLeft {w n k : Nat} (v : BitVec w) (h : w + k ≤ n) :
    residueOf (v.setWidth n <<< k) = residueOf v * residueX ^ k := by
  rw [residueOf, polyOf_setWidth_shiftLeft v h, map_mul, map_pow, AdjoinRoot.mk_X, residueOf, residueX]

theorem residueOf_zero (w : Nat) : residueOf 0#w = 0 := by
  rw [residueOf, polyOf_eq_zero_iff.mpr rfl, map_zero]

theorem residueOf_add_self {w : Nat} (v : BitVec w) : residueOf v + residueOf v = 0 := by
  rw [← residueOf_xor, BitVec.xor_self, residueOf_zero]

/-- Addition is subtraction over GF(2). -/
theorem residueOf_add_eq_zero_iff {w n : Nat} {a : BitVec w} {b : BitVec n} :
    residueOf a + residueOf b = 0 ↔ residueOf a = residueOf b := by
  rw [add_eq_zero_iff_eq_neg, neg_eq_of_add_eq_zero_left (residueOf_add_self b)]

/-- The only byte in the class of zero is zero, since its polynomial has a lower degree than the generator. -/
theorem residueOf_eq_zero_iff {c : Byte} : residueOf c = 0 ↔ c = 0#8 := by
  rw [← polyOf_eq_zero_iff]
  constructor
  · intro h
    by_contra hne
    refine AdjoinRoot.mk_ne_zero_of_degree_lt monic_crcGenerator hne ?_ h
    rw [degree_crcGenerator]
    exact degree_polyOf_lt c
  · intro h
    rw [residueOf, h, map_zero]

theorem residueOf_inj {a b : Byte} : residueOf a = residueOf b ↔ a = b := by
  rw [← residueOf_add_eq_zero_iff, ← residueOf_xor, residueOf_eq_zero_iff]
  exact BitVec.xor_eq_zero_iff

theorem residueOf_crcBit (c : Byte) : residueOf (crcBit c) = residueOf c * residueX := by
  rw [residueOf, polyOf_crcBit, map_add, map_mul, AdjoinRoot.mk_X, residueOf, residueX]
  split
  · rw [AdjoinRoot.mk_self, add_zero]
  · rw [map_zero, add_zero]

theorem residueOf_crcBits (n : Nat) (c : Byte) : residueOf (crcBits n c) = residueOf c * residueX ^ n := by
  induction n generalizing c with
  | zero => rw [crcBits, pow_zero, mul_one]
  | succ n ih => rw [crcBits, ih, residueOf_crcBit, pow_succ', mul_assoc]

/-- The register and the byte are added and moved up by a byte (R32). -/
theorem residueOf_crcByte (c b : Byte) :
    residueOf (crcByte c b) = (residueOf c + residueOf b) * residueX ^ 8 := by
  rw [crcByte, residueOf_crcBits, residueOf_xor]

/-- The checksum is in the class of M(x) x^8, where M is the string of the two bytes. -/
theorem residueOf_crc8 (b0 b1 : Byte) : residueOf (crc8 b0 b1) = residueOf (b0 ++ b1) * residueX ^ 8 := by
  have start : residueOf Config.crcInit = 0 := residueOf_zero 8
  rw [crc8, residueOf_crcByte, residueOf_crcByte, start, zero_add, residueOf_append]

end Sys2Proof.Machine
end

section
/-! SUPPORT. Error detection: a reply passes the checksum test exactly when the polynomial of its 24 bits is a multiple
of the generator, so that whether an error is detected depends on the error alone (spec/40_crc.md R42). -/
namespace Sys2Proof.Machine

/-- A 24-bit reply is its three bytes. -/
theorem reply_eq_append (r : BitVec 24) :
    r.extractLsb' 16 8 ++ r.extractLsb' 8 8 ++ r.extractLsb' 0 8 = r := by
  have data : r.extractLsb' 16 8 ++ r.extractLsb' 8 8 = r.extractLsb' 8 16 :=
    BitVec.extractLsb'_append_extractLsb'_eq_extractLsb' rfl
  have all : r.extractLsb' 8 16 ++ r.extractLsb' 0 8 = r.extractLsb' 0 24 :=
    BitVec.extractLsb'_append_extractLsb'_eq_extractLsb' rfl
  exact ((congrArg (· ++ r.extractLsb' 0 8) data).trans all).trans BitVec.extractLsb'_eq_self

/-- A reply verifies exactly when the polynomial of its 24 bits is a multiple of the generator. -/
theorem replyVerifies_iff (r : BitVec 24) : replyVerifies r = true ↔ residueOf r = 0 := by
  have reply : residueOf r =
      residueOf (crc8 (r.extractLsb' 16 8) (r.extractLsb' 8 8)) + residueOf (r.extractLsb' 0 8) := by
    rw [residueOf_crc8, ← residueOf_append]
    exact congrArg residueOf (reply_eq_append r).symm
  rw [replyVerifies, verify_eq_true_iff, reply, residueOf_add_eq_zero_iff, residueOf_inj]

theorem residueOf_goodReply (b0 b1 : Byte) : residueOf (goodReply b0 b1) = 0 := by
  have reply : residueOf (goodReply b0 b1) = residueOf (b0 ++ b1) * residueX ^ 8 + residueOf (crc8 b0 b1) :=
    residueOf_append (b0 ++ b1) (crc8 b0 b1)
  rw [reply, ← residueOf_crc8, residueOf_add_self]

/-- An error goes undetected exactly when it is itself a multiple of the generator. -/
theorem replyVerifies_goodReply_xor_eq_false_iff (b0 b1 : Byte) (e : BitVec 24) :
    replyVerifies (goodReply b0 b1 ^^^ e) = false ↔ residueOf e ≠ 0 := by
  rw [Bool.eq_false_iff, ne_eq, replyVerifies_iff, residueOf_xor, residueOf_goodReply, zero_add]

/-- A burst leaves the register as the iterations that carry it to its place do, which lose nothing. -/
theorem residueOf_burst_ne_zero {e : Byte} {k : Nat} (he : e ≠ 0#8) (hk : k ≤ 16) :
    residueOf (e.zeroExtend 24 <<< k) ≠ 0 := by
  have place : residueOf (e.zeroExtend 24 <<< k) = residueOf (crcBits k e) :=
    (residueOf_setWidth_shiftLeft e (by omega)).trans (residueOf_crcBits k e).symm
  rw [place, ne_eq, residueOf_eq_zero_iff]
  exact ((crcBits_injective k).ne he).trans_eq (crcBits_zero k)

theorem residueOf_bit {k : Nat} (hk : k < 24) : residueOf (1#24 <<< k) = residueOf (crcBits k 0x01) := by
  have bit : residueOf (1#24 <<< k) = residueOf 1#1 * residueX ^ k := residueOf_setWidth_shiftLeft 1#1 (by omega)
  have byte : residueOf (0x01 : Byte) = residueOf 1#1 := by simp [residueOf, polyOf]
  rw [bit, residueOf_crcBits, byte]

theorem crcBits_add (m n : Nat) (c : Byte) : crcBits (m + n) c = crcBits n (crcBits m c) := by
  induction m generalizing c with
  | zero => rw [Nat.zero_add, crcBits]
  | succ m ih => rw [Nat.add_right_comm, crcBits, ih, crcBits]

/-- Fewer than 24 iterations do not bring 0x01 back. -/
theorem crcBits_one_ne_one : ∀ d : Fin 23, crcBits (d.val + 1) 0x01 ≠ 0x01 := by decide

theorem crcBits_one_ne_of_lt {j k : Nat} (hjk : j < k) (hk : k < 24) : crcBits j 0x01 ≠ crcBits k 0x01 := by
  obtain ⟨d, rfl⟩ := Nat.exists_eq_add_of_lt hjk
  have apart : 0x01 ≠ crcBits (d + 1) 0x01 := (crcBits_one_ne_one ⟨d, by omega⟩).symm
  rw [Nat.add_assoc, Nat.add_comm, crcBits_add]
  exact (crcBits_injective j).ne apart

end Sys2Proof.Machine
end

section
/-! SUPPORT. Runs of a host that presents commands and nothing else, command by command (spec/20_memory.md R19). -/
namespace Sys2Proof.Machine

/-- The fold of the command rules at a command's own encoding. -/
theorem transcript_encode_cons (c : Byte) (i : Instr) (ws : List Word) :
    transcript c (encode i :: ws) =
      ((transcript (registerAfter i c) ws).1, responseTo i c :: (transcript (registerAfter i c) ws).2) := by
  rw [transcript, transact_eq, registerAfterWord_encode, responseToWord_encode]

/-- A host that presents these commands and nothing else. -/
theorem runSteps_commands {s : State} {cmds : List Instr} (hr : s.inReset = false)
    (hs : s.script = commandScript (cmds.map encode)) :
    runSteps cmds.length s = .next { s with
      c := (transcript s.c (cmds.map encode)).1
      script := []
      received := s.received ++ (transcript s.c (cmds.map encode)).2 } := by
  rw [← List.length_map encode]
  exact runIsFoldOfTransactions _ s [] hr (hs.trans (List.append_nil _).symm)

end Sys2Proof.Machine
end

section
/-! SUPPORT. Counting the elements of a finite type by a projection. -/
namespace Sys2Proof.Machine

/-- Counting by a projection `f` that takes the elements with `Q` one to one onto those with `P`. -/
theorem card_filter_eq_of_existsUnique {ι α : Type} [Fintype ι] [Fintype α] {Q : ι → Prop} {P : α → Prop}
    [DecidablePred Q] [DecidablePred P] (f : ι → α) (maps : ∀ i, Q i → P (f i))
    (unique : ∀ a, P a → ∃! i, Q i ∧ f i = a) : (Finset.univ.filter Q).card = (Finset.univ.filter P).card := by
  refine Finset.card_bij (fun i _ => f i) ?_ ?_ ?_
  all_goals simp only [Finset.mem_filter_univ]
  · exact maps
  · exact fun i hi j hj hij => (unique (f j) (maps j hj)).unique ⟨hi, hij⟩ ⟨hj, rfl⟩
  · intro a ha
    obtain ⟨i, ⟨hi, hia⟩, -⟩ := unique a ha
    exact ⟨i, hi, hia⟩

end Sys2Proof.Machine
end

section
/-! The statements of spec/40_crc.md on the laws of the CRC and on error detection, assembled from the lemmas above. -/
namespace Sys2Proof.Machine

open Polynomial

/-- Settles O8: the two arguments of `crc_byte` can be exchanged, so one bijection gives the other. -/
theorem crcByteXorAndBijection : Obligations.CrcByteXorAndBijection := by
  refine ⟨fun c b => ⟨?_, crcByte_self c⟩, crcByte_bijective, fun b => ?_⟩
  · rw [crcByte, crcByte]
    exact congrArg (crcBits 8) (BitVec.zero_xor).symm
  · simp only [crcByte_comm _ b]
    exact crcByte_bijective b

/-- Settles O9. -/
theorem crc8LinearOverXor : Obligations.Crc8LinearOverXor := by
  refine ⟨fun a0 a1 b0 b1 => ?_, crc8_zero_zero, crcBit_xor, fun a b => crcByte_xor 0x00 0x00 a b⟩
  have first : crcByte Config.crcInit (a0 ^^^ b0) = crcByte Config.crcInit a0 ^^^ crcByte Config.crcInit b0 :=
    crcByte_xor 0x00 0x00 a0 b0
  rw [crc8, first, crcByte_xor, crc8, crc8]

/-- Settles O10: the checksum is congruent to M(x) x^8 and of lower degree than the generator. -/
theorem crc8IsPolynomialRemainder : Obligations.Crc8IsPolynomialRemainder := by
  intro b0 b1
  show polyOf (crc8 b0 b1) = (polyOf (b0 ++ b1) * X ^ 8) %ₘ crcGenerator
  have reduced : polyOf (crc8 b0 b1) %ₘ crcGenerator = polyOf (crc8 b0 b1) := by
    rw [modByMonic_eq_self_iff monic_crcGenerator, degree_crcGenerator]
    exact degree_polyOf_lt _
  have congruent : crcGenerator ∣ polyOf (crc8 b0 b1) - polyOf (b0 ++ b1) * X ^ 8 := by
    rw [← AdjoinRoot.mk_eq_mk, map_mul, map_pow, AdjoinRoot.mk_X]
    exact residueOf_crc8 b0 b1
  rw [← reduced]
  exact modByMonic_eq_of_dvd_sub monic_crcGenerator congruent

/-- Settles O11: the last command compares `crc_byte` of the checksum and the third byte with zero. -/
theorem residueProgramVerifies : Obligations.ResidueProgramVerifies := by
  intro b0 b1 chk s hr hs
  refine ⟨_, runSteps_commands
    (cmds := [.crcInit, .crcByte b0, .crcByte b1, .crcByte chk, .crcCmp 0x00]) hr hs, ?_⟩
  have last : responseTo (.crcCmp 0x00) (crcByte (crc8 b0 b1) chk) =
      if chk = crc8 b0 b1 then 0x00000001 else 0x00000000 := by
    rw [responseTo, responseWord_ok_boolPayload_beq]
    simp only [crcByte_eq_zero_iff]
  simp only [List.map_cons, transcript_encode_cons, registerAfter, List.getLast?_append]
  exact congrArg some last

/-- Settles O12. -/
theorem registerWidthImmaterial : Obligations.RegisterWidthImmaterial :=
  fun b0 b1 => ⟨wideCrc8_mod b0 b1, refCrc8_toNat b0 b1⟩

/-- Settles O13: with each first byte exactly one second byte has the checksum. -/
theorem checksumValuesEquallyShared : Obligations.ChecksumValuesEquallyShared := by
  intro v
  have partner (a : Fin 256) :
      ∃! p : Fin 256 × Fin 256, crc8 (BitVec.ofFin p.1) (BitVec.ofFin p.2) = v ∧ p.1 = a := by
    obtain ⟨b, hb, only⟩ := (crc8_bijective_right (BitVec.ofFin a)).existsUnique v
    refine ⟨(a, b.toFin), ⟨hb, rfl⟩, ?_⟩
    rintro ⟨a', c⟩ ⟨hc, rfl⟩
    exact congrArg (fun b : Byte => (a', b.toFin)) (only (BitVec.ofFin c) hc)
  rw [card_filter_eq_of_existsUnique (P := fun _ => True) Prod.fst (fun _ _ => trivial) fun a _ => partner a,
    Finset.filter_true, Finset.card_univ, Fintype.card_fin]

/-- Settles O14: a checksum is one-to-one in each byte, and a flipped byte is another byte. -/
theorem singleBitErrorsDetected : Obligations.SingleBitErrorsDetected := by
  intro b0 b1 k hk
  have flipped (b : Byte) : b ^^^ (1#8 <<< k) ≠ b := by
    have one : ∀ k : Fin 8, 1#8 <<< k.val ≠ 0#8 := by decide
    intro h
    exact one ⟨k, hk⟩ (by simpa using h)
  simp only [verify_eq_false_iff]
  exact ⟨(crc8_injective_left b1).ne (flipped b0), (crc8_bijective_right b0).injective.ne (flipped b1),
    (flipped _).symm⟩

/-- Settles O15: no error of either form is a multiple of the generator. -/
theorem doubleAndBurstErrorsDetected : Obligations.DoubleAndBurstErrorsDetected := by
  constructor
  · intro b0 b1 j k hj hk hne
    rw [BitVec.xor_assoc, replyVerifies_goodReply_xor_eq_false_iff, residueOf_xor, residueOf_bit hj, residueOf_bit hk,
      ne_eq, residueOf_add_eq_zero_iff, residueOf_inj]
    rcases Nat.lt_or_gt_of_ne hne with h | h
    · exact crcBits_one_ne_of_lt h hk
    · exact (crcBits_one_ne_of_lt h hj).symm
  · intro b0 b1 e k he hk
    exact (replyVerifies_goodReply_xor_eq_false_iff ..).mpr (residueOf_burst_ne_zero he hk)

end Sys2Proof.Machine
end

section
/-! SUPPORT. Where truncation gives zero, and truncation against rounding down, for both formulas and the linear laws
(spec/41_convert.md R48, R52). -/
namespace Sys2Proof.Machine

/-- Truncation gives zero on both sides of zero, up to the divisor (R48 (g)). -/
theorem tdiv_eq_zero_iff {a b : Int} (hb : 0 < b) : a.tdiv b = 0 ↔ -b < a ∧ a < b := by
  have quotient : (a.tdiv b).natAbs = a.natAbs / b.natAbs := Int.natAbs_tdiv a b
  rw [← Int.natAbs_eq_zero, quotient, Nat.div_eq_zero_iff]
  omega

/-- Truncation against rounding down the exact quotient `x`, where `P` says that truncation does not round up
(R48 (d)). -/
theorem tdiv_eq_floor_add {a : Int} {b : Nat} {x : ℚ} {P : Prop} [Decidable P] (hb : 0 < b) (hx : x = a / b)
    (hP : P ↔ 0 ≤ a ∨ (b : Int) ∣ a) : a.tdiv b = ⌊x⌋ + if P then 0 else 1 := by
  rw [← tdiv_eq_tdiv, tdiv_eq_ediv_add a (Int.natCast_pos.mpr hb), hx, Rat.floor_intCast_div_natCast]
  simp only [hP]

/-- The one reading whose negative temperature numerator the divisor divides (notes/assumptions/12.md). -/
theorem dvd_numeratorT_iff {m : Nat} (h : 4393 * (m : Int) - 76750848 < 0) :
    (16384 : Int) ∣ 4393 * (m : Int) - 76750848 ↔ m = 0x2000 := by
  omega

/-- No negative humidity numerator is a multiple of the divisor (R48 (c)). -/
theorem not_dvd_numeratorH {m : Nat} (h : 125 * (m : Int) - 376832 < 0) :
    ¬ (32768 : Int) ∣ 125 * (m : Int) - 376832 := by
  omega

/-- The temperature formula against the linear law T (R52 (a)). -/
theorem convT_eq_floor {m : Half} {T : ℚ} (hT : T = -4685 / 100 + 17572 / 100 * (m.toNat : ℚ) / 65536) :
    convT m = ⌊100 * T + 1 / 2⌋ + if -5 / 1000 ≤ T ∨ m = 0x2000 then 0 else 1 := by
  have numerator : ((4393 * (m.toNat : Int) - 76750848 : Int) : ℚ) = (100 * T + 1 / 2) * 16384 := by
    rw [hT]
    push_cast
    ring
  have sign : -5 / 1000 ≤ T ↔ 0 ≤ 4393 * (m.toNat : Int) - 76750848 := by
    rw [← Int.cast_nonneg_iff (R := ℚ), numerator]
    constructor <;> intro h <;> linarith
  rw [convT_eq]
  refine tdiv_eq_floor_add (b := 16384) (by decide) ?_ ?_
  · rw [numerator, Nat.cast_ofNat, mul_div_cancel_right₀ _ (by norm_num)]
  · rw [sign]
    refine or_congr_right' fun negative => ?_
    rw [Nat.cast_ofNat, dvd_numeratorT_iff (not_le.mp negative), ← BitVec.toNat_inj]
    rfl

/-- The humidity formula against twice the linear law RH (R52 (b)). -/
theorem convH_eq_floor {m : Half} {RH : ℚ} (hRH : RH = -6 + 125 * (m.toNat : ℚ) / 65536) :
    convH m = ⌊2 * RH + 1 / 2⌋ + if -1 / 4 ≤ RH then 0 else 1 := by
  have numerator : ((125 * (m.toNat : Int) - 376832 : Int) : ℚ) = (2 * RH + 1 / 2) * 32768 := by
    rw [hRH]
    push_cast
    ring
  have sign : -1 / 4 ≤ RH ↔ 0 ≤ 125 * (m.toNat : Int) - 376832 := by
    rw [← Int.cast_nonneg_iff (R := ℚ), numerator]
    constructor <;> intro h <;> linarith
  rw [convH_eq]
  refine tdiv_eq_floor_add (b := 32768) (by decide) ?_ ?_
  · rw [numerator, Nat.cast_ofNat, mul_div_cancel_right₀ _ (by norm_num)]
  · rw [sign, or_iff_left_of_imp fun divides => ?_]
    exact not_lt.mp fun negative => not_dvd_numeratorH negative divides

end Sys2Proof.Machine
end

section
/-! The statements of spec/41_convert.md on the laws of the conversions, assembled from the lemmas above. -/
namespace Sys2Proof.Machine

/-- Settles O18: masking keeps the order, the slopes are positive, and truncation is monotone. -/
theorem conversionMonotone : Obligations.ConversionMonotone := by
  intro m m' h
  have masked : (maskRaw m).toNat ≤ (maskRaw m').toNat := by
    rw [maskRaw_toNat, maskRaw_toNat]
    omega
  rw [convT_eq, convT_eq, convH_eq, convH_eq]
  constructor
  · exact Int.tdiv_le_tdiv (by decide) (by omega)
  · exact Int.tdiv_le_tdiv (by decide) (by omega)

/-- Settles O19. The signs and the zeros rest on a masked raw reading being a multiple of 4. -/
theorem conversionRangesAndZeros : Obligations.ConversionRangesAndZeros := by
  refine ⟨fun raw => ?_, by decide, by decide, by decide, by decide⟩
  obtain ⟨loT, hiT⟩ := convT_maskRaw_range raw
  obtain ⟨loH, hiH⟩ := convH_maskRaw_range raw
  have zeroT : convT (maskRaw raw) = 0 ↔ maskRaw raw = 0x443C#16 ∨ maskRaw raw = 0x4440#16 := by
    rw [← BitVec.toNat_inj, ← BitVec.toNat_inj, BitVec.toNat_ofNat, BitVec.toNat_ofNat, convT_eq,
      tdiv_eq_zero_iff (by decide), maskRaw_toNat]
    omega
  have zeroH : convH (maskRaw raw) = 0 ↔ 0x0AC4 ≤ (maskRaw raw).toNat ∧ (maskRaw raw).toNat ≤ 0x0CCC := by
    rw [convH_eq, tdiv_eq_zero_iff (by decide), maskRaw_toNat]
    omega
  have four := maskRaw_toNat raw
  refine ⟨loT, hiT, int16_tc16_convT_maskRaw raw, loH, hiH, int16_tc16_convH_maskRaw raw, ?_, ?_, ?_, ?_, ?_, ?_,
    zeroT, zeroH⟩
  all_goals omega

/-- Settles O20. -/
theorem conversionAgainstLinearLaws : Obligations.ConversionAgainstLinearLaws :=
  fun _ _ _ hT hRH => ⟨convT_eq_floor hT, convH_eq_floor hRH⟩

/-- Refutes O21 at the masked raw reading 0x2000 (notes/assumptions/12.md). -/
theorem not_negativeNumeratorNeverMultiple : ¬ Obligations.NegativeNumeratorNeverMultiple := by
  intro h
  have masked : (maskRaw 0x2000).toNat = 0x2000 := by decide
  have numerator := h 0x2000
  rw [masked] at numerator
  exact numerator (by decide) (by decide)

end Sys2Proof.Machine
end

section
/-! SUPPORT. A valid reply, one that passes both tests of R53, and the response to a reply by whether it is valid
(spec/42_reply.md R56). -/
namespace Sys2Proof.Machine

variable {k : Kind} {b0 b1 chk : Byte}

theorem lastResponse_exec (i : Instr) (s : State) : lastResponse (exec i s) = some (responseTo i s.c) := by
  rw [exec_eq]
  exact List.getLast?_concat

/-- A reply passes both tests of R53 for a kind; `replyValid_iff_bits` and `replyValid_iff_mod` give it in the terms of
the statements. -/
def ReplyValid (k : Kind) (b0 b1 chk : Byte) : Prop :=
  verify b0 b1 chk = true ∧ tagMatches k (rawOf b0 b1) = true

theorem replyValid_iff_bits : ReplyValid k b0 b1 chk ↔ crc8 b0 b1 = chk ∧ b1.extractLsb' 0 2 = expectedTag k := by
  rw [ReplyValid, verify_eq_true_iff, tagMatches_iff, tagOf_rawOf]

theorem replyValid_iff_mod :
    ReplyValid k b0 b1 chk ↔ verify b0 b1 chk = true ∧ b1.toNat % 4 = (expectedTag k).toNat := by
  rw [ReplyValid, tagMatches_rawOf]

/-- A reply is answered with its value under OK where both tests pass, and else with an error and no payload. -/
theorem replyResponse_cases (k : Kind) (b0 b1 chk : Byte) :
    (ReplyValid k b0 b1 chk ∧
      replyResponse (checkReply k b0 b1 chk) = responseWord .ok (tc16 (conv k (maskRaw (rawOf b0 b1))))) ∨
    (¬ ReplyValid k b0 b1 chk ∧
      ∃ st : Status, st.code ≠ 0#4 ∧ replyResponse (checkReply k b0 b1 chk) = responseWord st 0#16) := by
  obtain ⟨hv, hres⟩ | ⟨hv, ht, hres⟩ | ⟨hv, ht, hres⟩ := checkReply_cases k b0 b1 chk
  · exact .inr ⟨by simp [ReplyValid, hv], .checksumMismatch, by decide, congrArg replyResponse hres⟩
  · exact .inr ⟨by simp [ReplyValid, ht], .unexpectedKind, by decide, congrArg replyResponse hres⟩
  · exact .inl ⟨⟨hv, ht⟩, congrArg replyResponse hres⟩

theorem statusField_replyResponse_iff :
    statusField (replyResponse (checkReply k b0 b1 chk)) = 0#4 ↔ ReplyValid k b0 b1 chk := by
  obtain ⟨valid, hr⟩ | ⟨invalid, st, hst, hr⟩ := replyResponse_cases k b0 b1 chk
  · exact iff_of_true (by rw [hr, statusField_responseWord]; rfl) valid
  · exact iff_of_false (by rwa [hr, statusField_responseWord]) invalid

theorem int16_tc16_conv_maskRaw (k : Kind) (raw : Half) :
    int16 (tc16 (conv k (maskRaw raw))) = conv k (maskRaw raw) := by
  cases k with
  | temperature => exact int16_tc16_convT_maskRaw raw
  | humidity => exact int16_tc16_convH_maskRaw raw

theorem value_of_status_ok (h : statusField (replyResponse (checkReply k b0 b1 chk)) = 0#4) :
    int16 (payloadField (replyResponse (checkReply k b0 b1 chk))) = conv k (maskRaw (rawOf b0 b1)) := by
  obtain ⟨-, hr⟩ | ⟨invalid, -⟩ := replyResponse_cases k b0 b1 chk
  · rw [hr, payloadField_responseWord, int16_tc16_conv_maskRaw]
  · exact absurd (statusField_replyResponse_iff.mp h) invalid

theorem payload_of_status_error (h : statusField (replyResponse (checkReply k b0 b1 chk)) ≠ 0#4) :
    payloadField (replyResponse (checkReply k b0 b1 chk)) = 0#16 := by
  obtain ⟨valid, -⟩ | ⟨-, st, -, hr⟩ := replyResponse_cases k b0 b1 chk
  · exact absurd (statusField_replyResponse_iff.mpr valid) h
  · rw [hr, payloadField_responseWord]

theorem replyResponse_eq_ok_iff (p : Half) :
    replyResponse (checkReply k b0 b1 chk) = responseWord .ok p ↔
      ReplyValid k b0 b1 chk ∧
      responseWord .ok (tc16 (conv k (maskRaw (rawOf b0 b1)))) = responseWord .ok p := by
  obtain ⟨valid, hr⟩ | ⟨invalid, st, hst, hr⟩ := replyResponse_cases k b0 b1 chk
  · rw [hr, and_iff_right valid]
  · refine iff_of_false (fun h => hst ?_) (fun h => invalid h.1)
    rw [← statusField_responseWord st 0#16, ← hr, h, statusField_responseWord]
    rfl

theorem responseWord_ok_boolPayload_eq_one_iff {v : Bool} :
    responseWord .ok (boolPayload v) = 0x00000001 ↔ v = true := by
  cases v <;> decide

/-- Either reply command against VERIFY, the tag and a conversion. -/
theorem replyCommand_iff_verify_convert {reply convert : Instr} (p : Half) (s : State)
    (hreply : responseTo reply s.c = replyResponse (checkReply k b0 b1 chk))
    (hconvert : responseTo convert s.c = responseWord .ok (tc16 (conv k (maskRaw (rawOf b0 b1))))) :
    lastResponse (exec reply s) = some (p.zeroExtend 32) ↔
      lastResponse (exec (.verify b0 b1 chk) s) = some 0x00000001 ∧ b1.toNat % 4 = (expectedTag k).toNat ∧
        lastResponse (exec convert s) = some (p.zeroExtend 32) := by
  have verified : responseTo (.verify b0 b1 chk) s.c = 0x00000001 ↔ verify b0 b1 chk = true :=
    responseWord_ok_boolPayload_eq_one_iff
  simp only [lastResponse_exec, Option.some_inj]
  rw [verified, hreply, hconvert, ← responseWord_ok, replyResponse_eq_ok_iff, replyValid_iff_mod, and_assoc]

end Sys2Proof.Machine
end

section
/-! SUPPORT. The number of valid replies of each kind (spec/42_reply.md R56). -/
namespace Sys2Proof.Machine

variable {k : Kind} {b0 b1 chk : Byte}

/-- Any first byte, and one of the 64 second bytes that have the kind's tag. -/
theorem card_pairs_with_tag (k : Kind) :
    (Finset.univ.filter fun q : Fin 256 × Fin 256 =>
      (BitVec.ofFin q.2 : Byte).extractLsb' 0 2 = expectedTag k).card = 16384 := by
  have tags : (Finset.univ.filter fun b : Fin 256 =>
      (BitVec.ofFin b : Byte).extractLsb' 0 2 = expectedTag k).card = 64 := by
    cases k with
    | temperature => decide
    | humidity => decide
  rw [← Finset.univ_product_univ,
    Finset.filter_product_right fun b : Fin 256 => (BitVec.ofFin b : Byte).extractLsb' 0 2 = expectedTag k,
    Finset.card_product, tags, Finset.card_univ, Fintype.card_fin]

/-- Two data bytes, the second with the kind's tag, make one valid reply, with their checksum. -/
theorem existsUnique_replyValid {q : Fin 256 × Fin 256}
    (tag : (BitVec.ofFin q.2 : Byte).extractLsb' 0 2 = expectedTag k) :
    ∃! p : Fin 256 × Fin 256 × Fin 256,
      ReplyValid k (BitVec.ofFin p.1) (BitVec.ofFin p.2.1) (BitVec.ofFin p.2.2) ∧ (p.1, p.2.1) = q := by
  refine ⟨(q.1, q.2, (crc8 (BitVec.ofFin q.1) (BitVec.ofFin q.2)).toFin),
    ⟨replyValid_iff_bits.mpr ⟨rfl, tag⟩, rfl⟩, ?_⟩
  rintro ⟨_, _, c⟩ ⟨valid, rfl⟩
  obtain ⟨sum, -⟩ := replyValid_iff_bits.mp valid
  rw [sum]

/-- The valid replies of a kind, counted by their two data bytes. -/
theorem card_replyValid (k : Kind) {accepted : Fin 256 × Fin 256 × Fin 256 → Prop} [DecidablePred accepted]
    (h : ∀ p, accepted p ↔ ReplyValid k (BitVec.ofFin p.1) (BitVec.ofFin p.2.1) (BitVec.ofFin p.2.2)) :
    (Finset.univ.filter accepted).card = 16384 := by
  refine (card_filter_eq_of_existsUnique (fun p => (p.1, p.2.1)) (fun p hp => ?_) fun q tag => ?_).trans
    (card_pairs_with_tag k)
  · exact (replyValid_iff_bits.mp ((h p).mp hp)).2
  · simp only [h]
    exact existsUnique_replyValid tag

/-- A command that answers as a reply does is answered OK exactly when the reply is valid. -/
theorem lastResponse_status_iff {i : Instr} (s : State)
    (hi : ∀ c, responseTo i c = replyResponse (checkReply k b0 b1 chk)) :
    (lastResponse (exec i s)).map statusField = some 0#4 ↔ ReplyValid k b0 b1 chk := by
  rw [lastResponse_exec, hi, Option.map_some, Option.some_inj, statusField_replyResponse_iff]

end Sys2Proof.Machine
end

section
/-! The statements of spec/42_reply.md on valid replies, assembled from the lemmas above. -/
namespace Sys2Proof.Machine

/-- Settles O37: a response is OK exactly for a valid reply, and an error has no payload. -/
theorem valueOnlyFromValidReply : Obligations.ValueOnlyFromValidReply := fun b0 b1 chk s =>
  ⟨⟨_, exec_eq (.rplyT b0 b1 chk) s, statusField_replyResponse_iff.trans replyValid_iff_bits, value_of_status_ok,
      payload_of_status_error⟩,
    ⟨_, exec_eq (.rplyH b0 b1 chk) s, statusField_replyResponse_iff.trans replyValid_iff_bits, value_of_status_ok,
      payload_of_status_error⟩⟩

/-- Settles O38: the accepted replies are the valid ones. -/
theorem acceptedReplyCount : Obligations.AcceptedReplyCount := by
  constructor
  · refine card_replyValid .temperature ?_
    rintro ⟨b0, b1, chk⟩
    exact lastResponse_status_iff State.reset fun c => rfl
  · refine card_replyValid .humidity ?_
    rintro ⟨b0, b1, chk⟩
    exact lastResponse_status_iff State.reset fun c => rfl

end Sys2Proof.Machine
end

section
/-! The remaining statements of spec/30_encoding.md, with what each needs beyond the lemmas above. -/
namespace Sys2Proof.Machine

/-- A word whose opcode is none of the ten is refused for it (R27). -/
theorem decode_of_unlisted {w : Word} (h : opField w ∉ listedOpcodes) :
    decode w = .error (.unlistedOpcode (opField w)) := by
  rw [decode_eq_error_iff, illegalCause_eq, if_neg h]
  exact ⟨rfl, fun hop => absurd hop h⟩

/-- Settles O1: the legal words are encodings, and the others are refused by opcode or by their X field. -/
theorem sampleWordsDecode : Obligations.SampleWordsDecode :=
  ⟨decode_encode .crcInit, decode_encode (.crcByte 0xEF), decode_encode .crcGet, decode_encode (.crcCmp 0xF5),
    decode_encode (.crc8 0x12 0x34), decode_encode (.verify 0x01 0x00 0xF4), decode_encode (.cvtT 0x6670),
    decode_encode (.cvtH 0x7C82), decode_encode (.rplyT 0x44 0x3C 0xB2), decode_encode (.rplyH 0x0C 0x4A 0x52),
    decode_of_unlisted (w := 0x00000000) (by decide),
    decode_formatD_nonzero_x (op := 0x10) (x := 0x01) (by decide) (by decide) 0x01 0x00,
    decode_of_unlisted (w := 0x32400089) (by decide)⟩

/-- Settles O56: each run, command by command, ends with the same register and the same response. -/
theorem compositesEqualStreams : Obligations.CompositesEqualStreams := by
  intro b0 b1 e s hr
  have run (cmds : List Instr) := runSteps_commands (s := { s with script := commandScript (cmds.map encode) }) hr rfl
  refine ⟨⟨crc8 b0 b1, responseTo (.crc8 b0 b1) s.c, responseTo .crcInit s.c,
      responseTo (.crcByte b0) Config.crcInit, (run [.crc8 b0 b1]).trans ?_,
      (run [.crcInit, .crcByte b0, .crcByte b1]).trans ?_⟩,
    ⟨crc8 b0 b1, responseTo (.verify b0 b1 e) s.c, responseTo .crcInit s.c, responseTo (.crcByte b0) Config.crcInit,
      responseTo (.crcByte b1) (crcByte Config.crcInit b0),
      (run [.verify b0 b1 e]).trans ?_, (run [.crcInit, .crcByte b0, .crcByte b1, .crcCmp e]).trans ?_⟩⟩
  all_goals
    simp only [List.map_cons, transcript_encode_cons]
    rfl

/-- Settles O57, for both kinds by one lemma. -/
theorem replyEqualsVerifyThenConvert : Obligations.ReplyEqualsVerifyThenConvert := fun _ _ _ p s =>
  ⟨replyCommand_iff_verify_convert (k := .temperature) p s rfl rfl,
    replyCommand_iff_verify_convert (k := .humidity) p s rfl rfl⟩

end Sys2Proof.Machine
end
